-- ==== Sys2Proof/Word.lean ====
section
/-! DEFINITION. The word types of the core: bytes, 24-bit transaction words, pen indices, colours. -/

namespace Sys2Proof

/-- A stored byte, an unsigned 8-bit value (R14, R49). -/
abbrev Byte := BitVec 8

/-- A 24-bit transaction word (R63). -/
abbrev Word := BitVec 24

/-- A 13-bit port address (R45, R65). -/
abbrev PortAddr := BitVec 13

/-- A pen index: what one pixel of the framebuffer holds (R16, R17). -/
abbrev Pen := Nat

/-- A palette entry: red, green and blue, 8 bits unsigned each (R29). -/
structure Rgb where
  r : Byte
  g : Byte
  b : Byte
  deriving DecidableEq, Repr

end Sys2Proof
end

