-- ==== Sys2Proof/Syntax.lean ====
section
/-! DEFINITION. The transactions of spec/opcode_table.json, one constructor a row, and the textual
lines of the spec's assembler (R78, R79). -/

namespace Sys2Proof

/-- The transactions of the core: one constructor per row of the opcode table. The operand widths are
those of R72: cell index `c` = w[17:8], sprite byte index `k` = w[12:8], data `d` = w[7:0]. -/
inductive Instr where
  /-- WR_FG_GFX c, d (R100) -/
  | wrFgGfx (c : BitVec 10) (d : Byte)
  /-- WR_FG_ATTR c, d (R101) -/
  | wrFgAttr (c : BitVec 10) (d : Byte)
  /-- WR_BG_GFX c, d (R102) -/
  | wrBgGfx (c : BitVec 10) (d : Byte)
  /-- WR_BG_ATTR c, d (R103) -/
  | wrBgAttr (c : BitVec 10) (d : Byte)
  /-- WR_SPR_PRI k, d (R128) -/
  | wrSprPri (k : BitVec 5) (d : Byte)
  /-- WR_SPR_SEC k, d (R129) -/
  | wrSprSec (k : BitVec 5) (d : Byte)
  /-- WR_SCROLL d (R108) -/
  | wrScroll (d : Byte)
  /-- WR_CTRL d (R147) -/
  | wrCtrl (d : Byte)
  /-- RD_FG_GFX c (R104) -/
  | rdFgGfx (c : BitVec 10)
  /-- RD_FG_ATTR c (R105) -/
  | rdFgAttr (c : BitVec 10)
  /-- RD_BG_GFX c (R106) -/
  | rdBgGfx (c : BitVec 10)
  /-- RD_BG_ATTR c (R107) -/
  | rdBgAttr (c : BitVec 10)
  /-- RD_SPR_PRI k (R141) -/
  | rdSprPri (k : BitVec 5)
  /-- RD_SPR_SEC k (R142) -/
  | rdSprSec (k : BitVec 5)
  /-- RENDER_FRAME (R157); its operands FB and CLIP stand outside the word (R68) -/
  | renderFrame
  /-- PALETTE_BUILD (R89) -/
  | paletteBuild
  /-- RESET (R187) -/
  | reset
  deriving DecidableEq, Repr

/-- The two tile layers (R97). -/
inductive LayerId where
  | fg
  | bg
  deriving DecidableEq, Repr

/-- The two byte arrays of a layer (R97): graphic index and attribute. -/
inductive Plane where
  | gfx
  | attr
  deriving DecidableEq, Repr

/-- The two sprite banks (R126): primary and secondary. -/
inductive Bank where
  | pri
  | sec
  deriving DecidableEq, Repr

/-- The clip region of R16: an inclusive rectangle inside the 256 × 256 framebuffer. The two proofs are
part of the operand: a rectangle that R16 does not admit cannot be built. -/
structure Clip where
  minx : Fin 256
  maxx : Fin 256
  miny : Fin 256
  maxy : Fin 256
  x_le : minx ≤ maxx
  y_le : miny ≤ maxy
  deriving DecidableEq, Repr

/-- The clip of a RENDER_FRAME line without operands: (0, 255, 0, 255) (R78). -/
def Clip.full : Clip := ⟨0, 255, 0, 255, by decide, by decide⟩

/-- One line of the spec's assembler syntax: the mnemonics of R78 (grouped by layer, plane and bank) and
the pseudo-instructions of R79. Operands are plain numbers; AsmLine.wellFormed checks their ranges. -/
inductive AsmLine where
  /-- `WR_FG_GFX c, d`, `WR_FG_ATTR c, d`, `WR_BG_GFX c, d`, `WR_BG_ATTR c, d` -/
  | wrTile (l : LayerId) (p : Plane) (c d : Nat)
  /-- `WR_SPR_PRI s, b, d`, `WR_SPR_SEC s, b, d` -/
  | wrSprite (bank : Bank) (s b d : Nat)
  /-- `WR_SCROLL d` -/
  | wrScroll (d : Nat)
  /-- `WR_CTRL d` -/
  | wrCtrl (d : Nat)
  /-- `RD_FG_GFX c`, `RD_FG_ATTR c`, `RD_BG_GFX c`, `RD_BG_ATTR c` -/
  | rdTile (l : LayerId) (p : Plane) (c : Nat)
  /-- `RD_SPR_PRI s, b`, `RD_SPR_SEC s, b` -/
  | rdSprite (bank : Bank) (s b : Nat)
  /-- `RENDER_FRAME` without operands: the clip is (0, 255, 0, 255) -/
  | renderFrame
  /-- `RENDER_FRAME minx, maxx, miny, maxy` -/
  | renderFrameIn (minx maxx miny maxy : Nat)
  /-- `PALETTE_BUILD` -/
  | paletteBuild
  /-- `RESET` -/
  | reset
  /-- pseudo `WR a, d` -/
  | wr (a d : Nat)
  /-- pseudo `RD a` -/
  | rd (a : Nat)
  /-- pseudo `FG_TILE c, g, t` and `BG_TILE c, g, t` -/
  | tile (l : LayerId) (c g t : Nat)
  /-- pseudo `SPRITE bank, s, y, m, a, x` -/
  | sprite (bank : Bank) (s y m a x : Nat)
  /-- pseudo `SPRITE_ZERO bank, s` -/
  | spriteZero (bank : Bank) (s : Nat)
  /-- pseudo `CTRL nmi, flip, prio, rbank` -/
  | ctrl (nmi flip prio rbank : Nat)
  /-- pseudo `NOP` -/
  | nop
  deriving DecidableEq, Repr

end Sys2Proof
end

