-- ==== Sys2Proof/WellFormed.lean ====
section
/-! DEFINITION. What is well formed: the operand ranges of an assembler line (R78, R79) and the clip
rectangle of R16. An `Instr` needs no check of its own: its operand types have exactly the widths of
R72, so every term of `Instr` is well formed. A configuration's check (R11, R13) stands in Config.lean. -/

namespace Sys2Proof

/-- Is (minx, maxx, miny, maxy) a clip region of R16: 0 ≤ minx ≤ maxx ≤ 255 and the same in y? -/
def clipWellFormed (minx maxx miny maxy : Nat) : Bool :=
  decide (minx ≤ maxx) && decide (maxx ≤ 255) && decide (miny ≤ maxy) && decide (maxy ≤ 255)

/-- The clip of four numbers, if R16 admits it. -/
def Clip.ofNats? (minx maxx miny maxy : Nat) : Option Clip :=
  if h : minx ≤ maxx ∧ maxx ≤ 255 ∧ miny ≤ maxy ∧ maxy ≤ 255 then
    some ⟨⟨minx, by omega⟩, ⟨maxx, by omega⟩, ⟨miny, by omega⟩, ⟨maxy, by omega⟩,
      by simp [Fin.le_def]; omega, by simp [Fin.le_def]; omega⟩
  else none

/-- The operand ranges of R78 and R79: c 0..1023, d 0..255, s 0..7, b 0..3, a 0..0x1FFF, one bit for nmi,
flip and rbank, two for prio. -/
def AsmLine.wellFormed : AsmLine → Bool
  | .wrTile _ _ c d => decide (c < 1024) && decide (d < 256)
  | .wrSprite _ s b d => decide (s < 8) && decide (b < 4) && decide (d < 256)
  | .wrScroll d => decide (d < 256)
  | .wrCtrl d => decide (d < 256)
  | .rdTile _ _ c => decide (c < 1024)
  | .rdSprite _ s b => decide (s < 8) && decide (b < 4)
  | .renderFrame => true
  | .renderFrameIn minx maxx miny maxy => clipWellFormed minx maxx miny maxy
  | .paletteBuild => true
  | .reset => true
  | .wr a d => decide (a < 0x2000) && decide (d < 256)
  | .rd a => decide (a < 0x2000)
  | .tile _ c g t => decide (c < 1024) && decide (g < 256) && decide (t < 256)
  | .sprite _ s y m a x =>
    decide (s < 8) && decide (y < 256) && decide (m < 256) && decide (a < 256) && decide (x < 256)
  | .spriteZero _ s => decide (s < 8)
  | .ctrl nmi flip prio rbank =>
    decide (nmi < 2) && decide (flip < 2) && decide (prio < 4) && decide (rbank < 2)
  | .nop => true

end Sys2Proof
end

