-- ==== Sys2Proof/Decode.lean ====
section
/-! DEFINITION. The decoder of the 24-bit transaction word (R63 to R77), total on every word, the encoder
written from the same tables, and the words of an assembler line (R78, R79). -/

namespace Sys2Proof

/-- Why a word is reserved (R73). A word with several reasons is named by the first of this list. -/
inductive Reserved where
  /-- CLASS = 11 -/
  | classEleven
  /-- w[21] = 1 -/
  | bit21
  /-- a STROBE word with w[21:2] ≠ 0 -/
  | strobeBits
  /-- a STROBE word with S = 11 -/
  | strobeCode
  deriving DecidableEq, Repr

/-- The four results of decoding a word (R77). -/
inductive Decoded where
  /-- 1. a row of the opcode table -/
  | row (i : Instr)
  /-- 2. an unmapped WRITE, to `a` in 0x1042..0x1FFF (R74, R48) -/
  | unmappedWrite (a : PortAddr) (d : Byte)
  /-- 3. a READ of a write-only or unmapped address `a` in 0x1040..0x1FFF (R74, R48, R60) -/
  | noEffectRead (a : PortAddr)
  /-- 4. refused (R73) -/
  | refused (e : Reserved)
  deriving DecidableEq, Repr

/-- CLASS = w[23:22] (R63, R64). -/
def Word.cls (w : Word) : BitVec 2 := w.extractLsb' 22 2

/-- The port address A = w[20:8] (R65, R66). -/
def Word.addr (w : Word) : PortAddr := w.extractLsb' 8 13

/-- The data byte D = w[7:0] (R65). -/
def Word.data (w : Word) : Byte := w.extractLsb' 0 8

/-- The cell index c = A[9:0] (R72). -/
def PortAddr.cell (a : PortAddr) : BitVec 10 := a.extractLsb' 0 10

/-- The sprite byte index k = A[4:0] (R72). -/
def PortAddr.spriteByte (a : PortAddr) : BitVec 5 := a.extractLsb' 0 5

/-- R69: the WRITE table, by A[12:10], then A[12:5], then A. -/
def decodeWrite (a : PortAddr) (d : Byte) : Decoded :=
  if a.extractLsb' 10 3 = 0b000#3 then .row (.wrFgGfx (PortAddr.cell a) d)
  else if a.extractLsb' 10 3 = 0b001#3 then .row (.wrFgAttr (PortAddr.cell a) d)
  else if a.extractLsb' 10 3 = 0b010#3 then .row (.wrBgGfx (PortAddr.cell a) d)
  else if a.extractLsb' 10 3 = 0b011#3 then .row (.wrBgAttr (PortAddr.cell a) d)
  else if a.extractLsb' 5 8 = 0b10000000#8 then .row (.wrSprPri (PortAddr.spriteByte a) d)
  else if a.extractLsb' 5 8 = 0b10000001#8 then .row (.wrSprSec (PortAddr.spriteByte a) d)
  else if a = 0x1040#13 then .row (.wrScroll d)
  else if a = 0x1041#13 then .row (.wrCtrl d)
  else .unmappedWrite a d

/-- R70: the READ table; bits 7:0 of the word are ignored (R66). -/
def decodeRead (a : PortAddr) : Decoded :=
  if a.extractLsb' 10 3 = 0b000#3 then .row (.rdFgGfx (PortAddr.cell a))
  else if a.extractLsb' 10 3 = 0b001#3 then .row (.rdFgAttr (PortAddr.cell a))
  else if a.extractLsb' 10 3 = 0b010#3 then .row (.rdBgGfx (PortAddr.cell a))
  else if a.extractLsb' 10 3 = 0b011#3 then .row (.rdBgAttr (PortAddr.cell a))
  else if a.extractLsb' 5 8 = 0b10000000#8 then .row (.rdSprPri (PortAddr.spriteByte a))
  else if a.extractLsb' 5 8 = 0b10000001#8 then .row (.rdSprSec (PortAddr.spriteByte a))
  else .noEffectRead a

/-- R71: the STROBE table, by S = w[1:0]; w[21:2] must be zero. -/
def decodeStrobe (w : Word) : Decoded :=
  if w.extractLsb' 2 20 ≠ 0#20 then .refused .strobeBits
  else if w.extractLsb' 0 2 = 0b00#2 then .row .renderFrame
  else if w.extractLsb' 0 2 = 0b01#2 then .row .paletteBuild
  else if w.extractLsb' 0 2 = 0b10#2 then .row .reset
  else .refused .strobeCode

/-- The decoder (R77): class 11 and bit 21 first (R73), then the table of the class (R69 to R71). -/
def decode (w : Word) : Decoded :=
  if Word.cls w = 0b11#2 then .refused .classEleven
  else if w.getLsbD 21 then .refused .bit21
  else if Word.cls w = 0b00#2 then decodeWrite (Word.addr w) (Word.data w)
  else if Word.cls w = 0b01#2 then decodeRead (Word.addr w)
  else decodeStrobe w

/-- A WRITE word (R65). -/
def encodeWrite (a : PortAddr) (d : Byte) : Word := 0b00#2 ++ 0b0#1 ++ a ++ d

/-- A READ word; the ignored bits 7:0 are written 0 (R66). -/
def encodeRead (a : PortAddr) : Word := 0b01#2 ++ 0b0#1 ++ a ++ 0x00#8

/-- A STROBE word (R67). -/
def encodeStrobe (s : BitVec 2) : Word := 0b10#2 ++ 0#20 ++ s

/-- The word of a transaction (R69 to R71). -/
def encode : Instr → Word
  | .wrFgGfx c d => encodeWrite (0b000#3 ++ c) d
  | .wrFgAttr c d => encodeWrite (0b001#3 ++ c) d
  | .wrBgGfx c d => encodeWrite (0b010#3 ++ c) d
  | .wrBgAttr c d => encodeWrite (0b011#3 ++ c) d
  | .wrSprPri k d => encodeWrite (0b10000000#8 ++ k) d
  | .wrSprSec k d => encodeWrite (0b10000001#8 ++ k) d
  | .wrScroll d => encodeWrite 0x1040#13 d
  | .wrCtrl d => encodeWrite 0x1041#13 d
  | .rdFgGfx c => encodeRead (0b000#3 ++ c)
  | .rdFgAttr c => encodeRead (0b001#3 ++ c)
  | .rdBgGfx c => encodeRead (0b010#3 ++ c)
  | .rdBgAttr c => encodeRead (0b011#3 ++ c)
  | .rdSprPri k => encodeRead (0b10000000#8 ++ k)
  | .rdSprSec k => encodeRead (0b10000001#8 ++ k)
  | .renderFrame => encodeStrobe 0b00#2
  | .paletteBuild => encodeStrobe 0b01#2
  | .reset => encodeStrobe 0b10#2

/-- One row of spec/opcode_table.json: a word belongs to it where `word &&& mask = pattern`. -/
structure TableRow where
  mnemonic : String
  pattern : Word
  mask : Word
  deriving DecidableEq, Repr

/-- The row of spec/opcode_table.json a transaction belongs to. -/
def Instr.row : Instr → TableRow
  | .wrFgGfx _ _ => ⟨"WR_FG_GFX", 0x000000#24, 0xFC0000#24⟩
  | .wrFgAttr _ _ => ⟨"WR_FG_ATTR", 0x040000#24, 0xFC0000#24⟩
  | .wrBgGfx _ _ => ⟨"WR_BG_GFX", 0x080000#24, 0xFC0000#24⟩
  | .wrBgAttr _ _ => ⟨"WR_BG_ATTR", 0x0C0000#24, 0xFC0000#24⟩
  | .wrSprPri _ _ => ⟨"WR_SPR_PRI", 0x100000#24, 0xFFE000#24⟩
  | .wrSprSec _ _ => ⟨"WR_SPR_SEC", 0x102000#24, 0xFFE000#24⟩
  | .wrScroll _ => ⟨"WR_SCROLL", 0x104000#24, 0xFFFF00#24⟩
  | .wrCtrl _ => ⟨"WR_CTRL", 0x104100#24, 0xFFFF00#24⟩
  | .rdFgGfx _ => ⟨"RD_FG_GFX", 0x400000#24, 0xFC0000#24⟩
  | .rdFgAttr _ => ⟨"RD_FG_ATTR", 0x440000#24, 0xFC0000#24⟩
  | .rdBgGfx _ => ⟨"RD_BG_GFX", 0x480000#24, 0xFC0000#24⟩
  | .rdBgAttr _ => ⟨"RD_BG_ATTR", 0x4C0000#24, 0xFC0000#24⟩
  | .rdSprPri _ => ⟨"RD_SPR_PRI", 0x500000#24, 0xFFE000#24⟩
  | .rdSprSec _ => ⟨"RD_SPR_SEC", 0x502000#24, 0xFFE000#24⟩
  | .renderFrame => ⟨"RENDER_FRAME", 0x800000#24, 0xFFFFFF#24⟩
  | .paletteBuild => ⟨"PALETTE_BUILD", 0x800001#24, 0xFFFFFF#24⟩
  | .reset => ⟨"RESET", 0x800002#24, 0xFFFFFF#24⟩

/-- spec/opcode_table.json, row by row. -/
def opcodeTable : List TableRow :=
  [Instr.row (.wrFgGfx 0 0),
    Instr.row (.wrFgAttr 0 0),
    Instr.row (.wrBgGfx 0 0),
    Instr.row (.wrBgAttr 0 0),
    Instr.row (.wrSprPri 0 0),
    Instr.row (.wrSprSec 0 0),
    Instr.row (.wrScroll 0),
    Instr.row (.wrCtrl 0),
    Instr.row (.rdFgGfx 0),
    Instr.row (.rdFgAttr 0),
    Instr.row (.rdBgGfx 0),
    Instr.row (.rdBgAttr 0),
    Instr.row (.rdSprPri 0),
    Instr.row (.rdSprSec 0),
    Instr.row .renderFrame,
    Instr.row .paletteBuild,
    Instr.row .reset]

/-- The transaction of a decoded word, if it is a row of the table. -/
def Decoded.instr? : Decoded → Option Instr
  | .row i => some i
  | .unmappedWrite _ _ => none
  | .noEffectRead _ => none
  | .refused _ => none

/-- The transaction word whose low `nbits` bits are those of `w`; every bit above is 0. -/
def tableWord (nbits w : Nat) : Word := BitVec.ofNat 24 (w % 2 ^ nbits)

/-- What the decoder reads from a table row's word: bit 0 of the table's numbering is bit 0 of the one
24-bit transaction word (R14, R63). -/
def decodeTableWord (nbits w : Nat) : Option Instr := (decode (tableWord nbits w)).instr?

/-- The WRITE word of the base address of a layer's plane: 0x000000, 0x040000, 0x080000, 0x0C0000 (R78). -/
def tileWordBase : LayerId → Plane → Nat
  | .fg, .gfx => 0x000000
  | .fg, .attr => 0x040000
  | .bg, .gfx => 0x080000
  | .bg, .attr => 0x0C0000

/-- The WRITE word of the base address of a sprite bank: 0x100000, 0x102000 (R78). -/
def spriteWordBase : Bank → Nat
  | .pri => 0x100000
  | .sec => 0x102000

/-- `ATTR b3, f, col`: the attribute byte b3·32 + f·16 + col, an assembler-time constant (R79). -/
def attrByte (b3 f col : Nat) : Nat := b3 * 32 + f * 16 + col

/-- `CTRL nmi, flip, prio, rbank`: the latch byte, unused bits 0 (R79). -/
def ctrlByte (nmi flip prio rbank : Nat) : Nat := nmi + flip * 2 + prio * 16 + rbank * 64

/-- The four WRITE words of a sprite record's bytes (R79, SPRITE). -/
def spriteWords (bank : Bank) (s y m a x : Nat) : List Nat :=
  [spriteWordBase bank + (4 * s + 0) * 0x100 + y, spriteWordBase bank + (4 * s + 1) * 0x100 + m,
    spriteWordBase bank + (4 * s + 2) * 0x100 + a, spriteWordBase bank + (4 * s + 3) * 0x100 + x]

/-- The words of an assembler line as numbers, in the order they are performed (R78, R79). -/
def AsmLine.wordNumbers : AsmLine → List Nat
  | .wrTile l p c d => [tileWordBase l p + c * 0x100 + d]
  | .wrSprite bank s b d => [spriteWordBase bank + (4 * s + b) * 0x100 + d]
  | .wrScroll d => [0x104000 + d]
  | .wrCtrl d => [0x104100 + d]
  | .rdTile l p c => [0x400000 + tileWordBase l p + c * 0x100]
  | .rdSprite bank s b => [0x400000 + spriteWordBase bank + (4 * s + b) * 0x100]
  | .renderFrame => [0x800000]
  | .renderFrameIn _ _ _ _ => [0x800000]
  | .paletteBuild => [0x800001]
  | .reset => [0x800002]
  | .wr a d => [a * 0x100 + d]
  | .rd a => [0x400000 + a * 0x100]
  | .tile l c g t => [tileWordBase l .gfx + c * 0x100 + g, tileWordBase l .attr + c * 0x100 + t]
  | .sprite bank s y m a x => spriteWords bank s y m a x
  | .spriteZero bank s => spriteWords bank s 0 0 0 0
  | .ctrl nmi flip prio rbank => [0x104100 + ctrlByte nmi flip prio rbank]
  | .nop => [0x1FFF00]

/-- The transaction words of an assembler line; an ill-formed line has none. -/
def AsmLine.words (l : AsmLine) : Option (List Word) :=
  if l.wellFormed then some (l.wordNumbers.map (BitVec.ofNat 24)) else none

/-- The clip a line gives its transaction (R78): its own operands on a RENDER_FRAME with operands, else the
whole framebuffer. -/
def AsmLine.clip : AsmLine → Clip
  | .renderFrameIn minx maxx miny maxy => (Clip.ofNats? minx maxx miny maxy).getD Clip.full
  | _ => Clip.full

end Sys2Proof
end

