-- ==== Sys2Proof/Config.lean ====
section
/-! DEFINITION. The configuration of one instance of the core (R9 to R13, R36): parameters that no
transaction changes, and the free values the spec leaves open. The machine runs on the opaque
`Config.device`; every operation takes the configuration as an argument, so that it can be tried on the
spec's fixture FIX. -/

namespace Sys2Proof

/-- The two hardware variants (R3, R10): A "legacy" and B "revised". -/
inductive Variant where
  | a
  | b
  deriving DecidableEq, Repr

/-- The implementation parameters R10 to R12. The spec leaves every one of them OPEN. (The field defaults
say nothing about a device: they only show Lean that a well-formed configuration exists.) -/
structure Params where
  /-- VARIANT (R10) -/
  variant : Variant := .a
  /-- PALETTE_ENTRIES, written N (R11) -/
  paletteEntries : Nat := 16
  /-- PROM, PROM_LEN bytes, read-only (R11, R36) -/
  prom : List Byte := List.replicate 48 0
  /-- TILE_BPP (R12) -/
  tileBpp : Nat := 0
  /-- SPRITE_BPP (R12) -/
  spriteBpp : Nat := 0
  /-- SPRITE_W (R12) -/
  spriteW : Nat := 0
  /-- SPRITE_H (R12) -/
  spriteH : Nat := 0
  /-- FG_COLOR_BASE (R12) -/
  fgColorBase : Nat := 0
  /-- BG_COLOR_BASE (R12) -/
  bgColorBase : Nat := 0
  /-- SPRITE_COLOR_BASE (R12) -/
  spriteColorBase : Nat := 0
  /-- TILE_GFX_FG(code, u, v), a pixel value of TILE_BPP bits (R12, R61) -/
  tileGfxFg : BitVec 11 → BitVec 3 → BitVec 3 → BitVec tileBpp := fun _ _ _ => 0
  /-- TILE_GFX_BG(code, u, v) (R12, R61) -/
  tileGfxBg : BitVec 11 → BitVec 3 → BitVec 3 → BitVec tileBpp := fun _ _ _ => 0
  /-- SPRITE_GFX(code, u, v), asked only for u below SPRITE_W and v below SPRITE_H (R12, R61) -/
  spriteGfx : BitVec 10 → Nat → Nat → BitVec spriteBpp := fun _ _ _ => 0

/-- The largest pen a layer or the sprites can form from a colour base and a depth is below N (R13). -/
def Params.pensFit (p : Params) (base bpp : Nat) : Bool :=
  decide (base + 15 * 2 ^ bpp + (2 ^ bpp - 1) < p.paletteEntries)

/-- R11 and R13: the PROM holds the palette's lookup table, and every pen the configuration can form is
below N. A configuration that fails this is rejected: no `Config` holds it. -/
def Params.wellFormed (p : Params) : Bool :=
  decide (0x20 + p.paletteEntries ≤ p.prom.length) &&
  p.pensFit p.bgColorBase p.tileBpp &&
  p.pensFit p.fgColorBase p.tileBpp &&
  p.pensFit p.spriteColorBase p.spriteBpp

/-- A well-formed configuration (R11, R13), with the values the spec leaves free. -/
structure Config extends Params where
  /-- R11 and R13 hold. -/
  wf : toParams.wellFormed = true := by decide
  /-- The power-up draw of each RAM byte, by port address (U3, R21 to R26, R186). -/
  powerUpByte : Nat → Byte := fun _ => 0
  /-- The n-th fresh draw of a READ of a write-only or unmapped address (U1, U2, R48, R60). -/
  portByte : Nat → Byte := fun _ => 0
  /-- The colour shown at a pixel whose pen is not below N (R95: `any`). -/
  anyColour : Fin 256 → Fin 256 → Pen → Rgb := fun _ _ _ => ⟨0, 0, 0⟩
  deriving Inhabited

/-- The configuration of the core at hand: nothing about it can be proved but that it is well formed. -/
opaque Config.device : Config

end Sys2Proof
end

