-- ==== Sys2Proof/Machine/Palette.lean ====
section
/-! DEFINITION. The palette decoder's arithmetic (R85 to R96): from the colour PROM to the RGB palette. It
needs no state, and `State.reset` holds its result. -/

namespace Sys2Proof.Machine

/-- `PROM[k]` (R15). Every offset the palette build reads lies below PROM_LEN (R59, R91), so the default
is never taken. -/
def promByte (cfg : Config) (k : Nat) : Byte := cfg.prom.getD k 0

/-- `byte[k]` as the number 0 or 1 (R87). -/
def bitNat (b : Byte) (k : Nat) : Nat := (b.getLsbD k).toNat

/-- The weighted sum of a red or green field, whose bits are k, k+1 and k+2 (R87). -/
def weigh (b : Byte) (k : Nat) : Nat :=
  0x21 * bitNat b k + 0x47 * bitNat b (k + 1) + 0x97 * bitNat b (k + 2)

/-- The weighted sum of the blue field: its lowest weight is forced to 0 (R87). -/
def weighBlue (b : Byte) : Nat := 0x21 * 0 + 0x47 * bitNat b 6 + 0x97 * bitNat b 7

/-- Colour decode `RGB(byte)` (R87). -/
def rgb (b : Byte) : Rgb :=
  ⟨BitVec.ofNat 8 (weigh b 0), BitVec.ofNat 8 (weigh b 3), BitVec.ofNat 8 (weighBlue b)⟩

/-- The pen index of palette entry `i`: a nibble of the lookup table, with variant A's high bit for
`i ≥ 0x100` (R88). -/
def penIndex (cfg : Config) (i : Nat) : Nat :=
  let lut := promByte cfg (0x20 + i)
  match cfg.variant with
  | .a => ((lut &&& 0x0F) ||| (if i < 0x100 then 0x00 else 0x10)).toNat
  | .b => (lut &&& 0x0F).toNat

/-- The colour of palette entry `i` (R89). -/
def paletteEntry (cfg : Config) (i : Nat) : Rgb := rgb (promByte cfg (penIndex cfg i))

/-- The palette build: one entry for each `i` in 0..N−1 (R89). -/
def buildPalette (cfg : Config) : List Rgb := (List.range cfg.paletteEntries).map (paletteEntry cfg)

end Sys2Proof.Machine
end

