-- ==== Sys2Proof/Machine/State.lean ====
section
/-! DEFINITION. The state of the core (R20 to R33) as plain data, with the outside world's side of the port;
the reasons a step can stop; the state right after power-up (R186). -/

namespace Sys2Proof.Machine

/-- What tile-info derivation returns for a cell (R99, R30). -/
structure TileInfo where
  /-- the tile code, 0..2047 -/
  code : BitVec 11
  /-- the colour group, 0..15 -/
  color : BitVec 4
  /-- the horizontal flip of the cell -/
  flipx : Bool
  deriving DecidableEq, Repr

/-- One layer's cache bookkeeping: `CACHE_L`, `DIRTY_L` and `REDERIVE_L` (R30, R31, R32). -/
structure TileLayer where
  /-- `CACHE_L[0..1023]`: `none` is EMPTY (R30) -/
  cache : Vector (Option TileInfo) 1024
  /-- `DIRTY_L[0..1023]`, the parallel dirty-bit set: bit c is cell c's (R30, R31) -/
  dirty : BitVec 1024
  /-- `REDERIVE_L`, unbounded (R32) -/
  rederive : Nat
  deriving DecidableEq, Repr

/-- The compositor's draw-sequence position `PHASE` (R33). -/
inductive Phase where
  | idle
  | bg
  | fgEarly
  | sprFirst
  | sprSecond
  | fgLate
  | done
  deriving DecidableEq, Repr

/-- The framebuffer of R16: 256 columns of 256 pens, `cols[sx][sy]`. -/
structure Frame where
  cols : Vector (Vector Pen 256) 256
  deriving DecidableEq, Repr

/-- The status of a render: the constant SUCCESS (R166). -/
inductive RenderStatus where
  | success
  deriving DecidableEq, Repr

/-- What a transaction returns to its issuer. -/
inductive Response where
  /-- a WRITE, PALETTE_BUILD or RESET returns nothing -/
  | none
  /-- a READ returns one byte (R66) -/
  | byte (b : Byte)
  /-- a render returns its status (R157, R166) -/
  | status (st : RenderStatus)
  deriving DecidableEq, Repr

/-- One transaction waiting at the port: its word, and the operands a RENDER_FRAME has outside the word
(R68). `fb` is `some f` where the host passes a framebuffer it has changed, and `none` where it passes the
one the previous render left (R37). -/
structure Request where
  word : Word
  clip : Clip
  fb : Option Frame
  deriving DecidableEq, Repr

/-- The core raises no exception and has no error path (R171, R172): no transaction stops with a fault, so
there is no fault to name (safe: nothing is hidden behind one). -/
inductive Fault where
  deriving DecidableEq, Repr

/-- Why a transaction gets no next state. Safe: a refused run proves nothing (R174). -/
inductive Refusal where
  /-- an instruction whose arm of `exec` is not modelled yet (none is) -/
  | notModelled (mnemonic : String)
  /-- a reserved transaction word (R73), raised by the step where the decoder refuses the word -/
  | reservedWord (e : Reserved)
  deriving DecidableEq, Repr

/-- The machine. `mem` to `phase` are the core's state (R20); the fields after `phase` are the model's own:
the port's queue, the operands FB and CLIP, the last response and the count of draws. -/
structure State where
  /-- the tile and sprite RAM by port address (R21 to R26, R46): cells at rising addresses, none equal to
  the power-up draw of its address -/
  mem : List Host.Cell
  /-- `SCROLL` (R27) -/
  scroll : Byte
  /-- `LATCH` (R28) -/
  latch : Byte
  /-- `PALETTE[0..N−1]` (R29) -/
  palette : List Rgb
  /-- `CACHE_FG`, `DIRTY_FG`, `REDERIVE_FG` -/
  fg : TileLayer
  /-- `CACHE_BG`, `DIRTY_BG`, `REDERIVE_BG` -/
  bg : TileLayer
  /-- `PHASE` (R33) -/
  phase : Phase
  /-- the transactions at the port, first to be performed first (R52, R176) -/
  port : List Request
  /-- the clip operand of a render (R37, R68) -/
  clip : Clip
  /-- the framebuffer the host passes in and gets back (R37, R68) -/
  fb : Frame
  /-- what the last transaction returned -/
  response : Response
  /-- how many fresh draws READs have used (U1, U2) -/
  draws : Nat
  deriving DecidableEq, Repr

/-- A layer's cache at power-up: every cell EMPTY and dirty, no derivation counted (R186). -/
def TileLayer.powerUp : TileLayer :=
  { cache := Vector.replicate 1024 none, dirty := BitVec.allOnes 1024, rederive := 0 }

/-- The framebuffer the model starts with: pen 0 everywhere. Not a value of the spec (R37). -/
def Frame.blank : Frame := ⟨Vector.replicate 256 (Vector.replicate 256 0)⟩

/-- Power-up under a configuration (R186). The RAM lists nothing: every byte is its power-up draw. -/
def State.powerUp (cfg : Config) : State :=
  { mem := []
    scroll := 0x00
    latch := 0x00
    palette := buildPalette cfg
    fg := TileLayer.powerUp
    bg := TileLayer.powerUp
    phase := .idle
    port := []
    clip := Clip.full
    fb := Frame.blank
    response := .none
    draws := 0 }

/-- The machine right after power-up (R186). -/
def State.reset : State := State.powerUp Config.device

end Sys2Proof.Machine
end

