-- ==== Sys2Proof/Machine/Ops.lean ====
section
/-! DEFINITION. The named operations over memory, the framebuffer, the caches and the port's answer. -/

namespace Sys2Proof.Machine

/-! ### Memory: a list of cells over the power-up draws -/

/-- The byte at `a`: the listed one, else the power-up draw of `a`, which `d` gives (R53). -/
def readCells (d : Nat → Byte) : List Host.Cell → Nat → Byte
  | [], a => d a
  | (k, v) :: rest, a => if k = a then v else readCells d rest a

/-- List `v` at `a`, in address order. -/
def putCell : List Host.Cell → Nat → Byte → List Host.Cell
  | [], a, v => [(a, v)]
  | (k, w) :: rest, a, v =>
    if a < k then (a, v) :: (k, w) :: rest
    else if a = k then (a, v) :: rest
    else (k, w) :: putCell rest a v

/-- Store `v` at `a`. A byte equal to its power-up draw is not listed, so that memories that read alike are
equal data. -/
def writeCells (d : Nat → Byte) (m : List Host.Cell) (a : Nat) (v : Byte) : List Host.Cell :=
  if v = d a then m.filter (fun c => c.1 ≠ a) else putCell m a v

/-- The canonical form of memory: addresses strictly rising, only RAM addresses (R46), and no cell equal to
the power-up draw of its address, which is what an unlisted address reads as. -/
abbrev Memory.wf (d : Nat → Byte) (m : List Host.Cell) : Prop :=
  m.Pairwise (fun x y => x.1 < y.1) ∧ ∀ c ∈ m, c.1 < 0x1040 ∧ c.2 ≠ d c.1

/-- The core RAM regions (R15). -/
inductive Region where
  | fgGfx
  | fgAttr
  | bgGfx
  | bgAttr
  | sprPri
  | sprSec
  deriving DecidableEq, Repr

/-- The port address of a region's first byte (R46). -/
def Region.base : Region → Nat
  | .fgGfx => 0x0000
  | .fgAttr => 0x0400
  | .bgGfx => 0x0800
  | .bgAttr => 0x0C00
  | .sprPri => 0x1000
  | .sprSec => 0x1020

/-- How many bytes a region holds (R46). -/
def Region.size : Region → Nat
  | .fgGfx => 1024
  | .fgAttr => 1024
  | .bgGfx => 1024
  | .bgAttr => 1024
  | .sprPri => 32
  | .sprSec => 32

/-- The region of a layer's plane (R97). -/
def tileRegion : LayerId → Plane → Region
  | .fg, .gfx => .fgGfx
  | .fg, .attr => .fgAttr
  | .bg, .gfx => .bgGfx
  | .bg, .attr => .bgAttr

/-- The region of a sprite bank (R126). -/
def spriteRegion : Bank → Region
  | .pri => .sprPri
  | .sec => .sprSec

/-- The RAM byte at port address `a`. -/
def ramByte (cfg : Config) (s : State) (a : Nat) : Byte := readCells cfg.powerUpByte s.mem a

/-- `MemRead(region, i)` (R15). -/
def memRead (cfg : Config) (s : State) (r : Region) (i : Nat) : Byte := ramByte cfg s (r.base + i)

/-- `MemWrite(region, i, v)` (R15). -/
def memWrite (cfg : Config) (s : State) (r : Region) (i : Nat) (v : Byte) : State :=
  { s with mem := writeCells cfg.powerUpByte s.mem (r.base + i) v }

/-! ### Caches -/

/-- A layer's cache bookkeeping. -/
def State.layer (s : State) : LayerId → TileLayer
  | .fg => s.fg
  | .bg => s.bg

/-- Replace a layer's cache bookkeeping. -/
def State.setLayer (s : State) : LayerId → TileLayer → State
  | .fg, l => { s with fg := l }
  | .bg, l => { s with bg := l }

/-- `DIRTY_L[c] <- 1` (R100 to R103). -/
def TileLayer.markDirty (l : TileLayer) (c : Nat) : TileLayer :=
  { l with dirty := l.dirty ||| BitVec.twoPow 1024 c }

/-- `DIRTY_L[c] <- 0` (R110). -/
def TileLayer.clearDirty (l : TileLayer) (c : Nat) : TileLayer :=
  { l with dirty := l.dirty &&& ~~~ BitVec.twoPow 1024 c }

/-! ### Framebuffer -/

/-- `FB[sx][sy]` (R16). -/
def Frame.get (f : Frame) (sx sy : Fin 256) : Pen := f.cols[sx][sy]

/-- `FB[sx][sy] <- p`. -/
def Frame.set (f : Frame) (sx sy : Fin 256) (p : Pen) : Frame :=
  ⟨f.cols.set sx (f.cols[sx].set sy p)⟩

/-- Write `ink sx sy` to every pixel that has one; leave the others. Irreducible, so that no proof compares two
frames pixel by pixel by accident. -/
@[irreducible] def Frame.paint (f : Frame) (ink : Fin 256 → Fin 256 → Option Pen) : Frame :=
  ⟨Vector.ofFn fun sx => Vector.ofFn fun sy => (ink sx sy).getD (f.get sx sy)⟩

/-! ### The port's answer -/

/-- Return something to the issuer of the transaction. -/
def State.respond (s : State) (r : Response) : State := { s with response := r }

/-- Return one fresh draw (U1, U2): the byte is `cfg.portByte` of the number of draws so far. -/
def State.respondAny (cfg : Config) (s : State) : State :=
  { s with response := .byte (cfg.portByte s.draws), draws := s.draws + 1 }

end Sys2Proof.Machine
end

