-- ==== Sys2Proof/Machine/Flags.lean ====
section
/-! DEFINITION. The fields of the priority/mode latch (R28, R147) and the output signals (R35). The core has
no condition codes (R34). -/

namespace Sys2Proof.Machine

/-- `NMI_EN` = LATCH[0] (R28). -/
def State.nmiEn (s : State) : Bool := s.latch.getLsbD 0

/-- `FLIP` = LATCH[1] (R28). -/
def State.flip (s : State) : Bool := s.latch.getLsbD 1

/-- `PRIO` = LATCH[5:4] (R28). -/
def State.prio (s : State) : BitVec 2 := s.latch.extractLsb' 4 2

/-- `ROM_BANK` = LATCH[6] (R28). -/
def State.romBank (s : State) : Bool := s.latch.getLsbD 6

/-- `OUT_NMI_EN`, to the external interrupt controller (R35). -/
def State.outNmiEn (s : State) : Bool := s.nmiEn

/-- `OUT_FLIP`, the flip-screen global (R35, R154). -/
def State.outFlip (s : State) : Bool := s.flip

/-- `OUT_ROM_BANK`, to the external ROM banking (R35). -/
def State.outRomBank (s : State) : Bool := s.romBank

/-- Write the whole latch: every field changes in one step (R147). -/
def State.setLatch (s : State) (d : Byte) : State := { s with latch := d }

/-- Write the foreground's horizontal scroll (R108). -/
def State.setScroll (s : State) (d : Byte) : State := { s with scroll := d }

end Sys2Proof.Machine
end

