-- ==== Sys2Proof/Machine/Operands.lean ====
section
/-! DEFINITION. The operands of the transactions: the index a word names (R72), the operands FB and CLIP
that stand outside the word (R68), and taking a transaction from the port. -/

namespace Sys2Proof.Machine

/-- A point is inside the clip: minx ≤ x ≤ maxx and miny ≤ y ≤ maxy, over the integers (R16, R14). -/
abbrev Inside (c : Clip) (x y : Int) : Prop :=
  (c.minx.val : Int) ≤ x ∧ x ≤ (c.maxx.val : Int) ∧ (c.miny.val : Int) ≤ y ∧ y ≤ (c.maxy.val : Int)

/-- A framebuffer pixel is inside the clip (R16). -/
abbrev InsidePixel (c : Clip) (sx sy : Fin 256) : Prop := Inside c (sx.val : Int) (sy.val : Int)

/-- The index of byte `b` of slot `s` of a sprite bank, k = 4·s + b (R72, R127). -/
def slotByte (s b : Nat) : Nat := 4 * s + b

/-- The slot of a sprite byte index, k[4:2] (R72). -/
def slotOf (k : BitVec 5) : BitVec 3 := k.extractLsb' 2 3

/-- The byte within the record of a sprite byte index, k[1:0] (R72). -/
def byteOf (k : BitVec 5) : BitVec 2 := k.extractLsb' 0 2

/-- Take the first waiting transaction off the port: `rest` still waits, its CLIP and FB are the operands,
and nothing has been returned for it yet (R52, R68). -/
def State.accept (s : State) (r : Request) (rest : List Request) : State :=
  { s with port := rest, clip := r.clip, fb := r.fb.getD s.fb, response := .none }

/-- A transaction given by its word alone: the clip is the whole framebuffer, the framebuffer the one the
host holds. -/
def Request.ofWord (w : Word) : Request := { word := w, clip := Clip.full, fb := none }

/-- The transactions of an assembler line (R78, R79); an ill-formed line has none. -/
def Request.ofLine (l : AsmLine) : Option (List Request) :=
  l.words.map (fun ws => ws.map (fun w => { word := w, clip := l.clip, fb := none }))

end Sys2Proof.Machine
end

