-- ==== Sys2Proof/Machine/SpriteBlitter.lean ====
section
/-! DEFINITION. Sprite decode, the cell blitter and the sprite bank draw (R130 to R140, R143, R144). -/

namespace Sys2Proof.Machine

/-- A decoded sprite slot, as the blitter takes it (R138, R139). Coordinates are integers (R143). -/
structure Sprite where
  x : Int
  y : Int
  code : BitVec 10
  color : BitVec 4
  flipx : Bool
  flipy : Bool
  deriving DecidableEq, Repr

/-- `SPRITE_CODE_OFFSET[BANK]` (R132). -/
def spriteCodeOffset : Bank → Nat
  | .pri => 0
  | .sec => 0x200

/-- The horizontal position before the screen flip: the x byte wraps at 248 (R131). -/
def spriteX (byte3 : Byte) : Int :=
  if 248 ≤ byte3.toNat then (byte3.toNat : Int) - 256 else (byte3.toNat : Int)

/-- The vertical position before the screen flip: 240 − byte0, no wrap (R130). -/
def spriteY (byte0 : Byte) : Int := 240 - (byte0.toNat : Int)

/-- The graphic code (R132). -/
def spriteCode (bank : Bank) (byte1 byte2 : Byte) : Nat :=
  (byte1.toNat >>> 2) + ((byte2.toNat >>> 5) &&& 7) * 0x40 + spriteCodeOffset bank

/-- Decode the four bytes of a slot (R130 to R134), then apply the screen flip (R135, R136). -/
def spriteOf (bank : Bank) (flip : Bool) (byte0 byte1 byte2 byte3 : Byte) : Sprite :=
  { x := if flip then 239 - spriteX byte3 else spriteX byte3
    y := if flip then 239 - spriteY byte0 else spriteY byte0
    code := BitVec.ofNat 10 (spriteCode bank byte1 byte2)
    color := BitVec.ofNat 4 (byte2.toNat &&& 0x0F)
    flipx := if flip then !(byte1.getLsbD 0) else byte1.getLsbD 0
    flipy := flip }

/-- Slot `slot` of a bank, decoded from the current RAM and `FLIP` (R139). -/
def spriteAt (cfg : Config) (s : State) (bank : Bank) (slot : Nat) : Sprite :=
  let byte := fun j => memRead cfg s (spriteRegion bank) (slotByte slot j)
  spriteOf bank s.flip (byte 0) (byte 1) (byte 2) (byte 3)

/-- Write one pixel if it is inside the clip; else it is dropped, never wrapped (R138). -/
def Frame.plot (f : Frame) (c : Clip) (x y : Int) (p : Pen) : Frame :=
  if h : Inside c x y then
    f.set ⟨x.toNat, by have := c.maxx.isLt; omega⟩ ⟨y.toNat, by have := c.maxy.isLt; omega⟩ p
  else f

/-- The pen of a sprite pixel: base + colour·2^SPRITE_BPP + pix (R138). -/
def spritePen (cfg : Config) (d : Sprite) (pix : Nat) : Pen :=
  cfg.spriteColorBase + d.color.toNat * 2 ^ cfg.spriteBpp + pix

/-- One turn of the blit's inner loop: pixel `(u, v)` of the cell (R138). -/
def blitPixel (cfg : Config) (c : Clip) (d : Sprite) (v : Nat) (f : Frame) (u : Nat) : Frame :=
  let pix := (cfg.spriteGfx d.code u v).toNat
  if pix ≠ 0 then
    let dx := d.x + (if d.flipx then (cfg.spriteW : Int) - 1 - u else u)
    let dy := d.y + (if d.flipy then (cfg.spriteH : Int) - 1 - v else v)
    f.plot c dx dy (spritePen cfg d pix)
  else f

/-- One row of the blit (R138). -/
def blitRow (cfg : Config) (c : Clip) (d : Sprite) (f : Frame) (v : Nat) : Frame :=
  (List.range cfg.spriteW).foldl (blitPixel cfg c d v) f

/-- `BLIT(FB, CLIP, code, color, flipx, flipy, x, y)` (R138). Irreducible, as `Frame.paint` is. -/
@[irreducible] def blit (cfg : Config) (c : Clip) (d : Sprite) (f : Frame) : Frame :=
  (List.range cfg.spriteH).foldl (blitRow cfg c d) f

/-- `SPRITE_BANK_DRAW(BANK, FB, CLIP)`: all 8 slots, highest index first (R139). -/
def drawBank (cfg : Config) (s : State) (bank : Bank) : State :=
  { s with fb := [7, 6, 5, 4, 3, 2, 1, 0].foldl (fun f slot => blit cfg s.clip (spriteAt cfg s bank slot) f) s.fb }

end Sys2Proof.Machine
end

