-- ==== Sys2Proof/Machine/TileRenderer.lean ====
section
/-! DEFINITION. The tile cache and the tile renderer (R98, R99, R109 to R118). -/

namespace Sys2Proof.Machine

/-- Tile-info derivation from a cell's graphic-index byte `g` and attribute byte `a` (R99). -/
def tileInfoOf (g a : Byte) : TileInfo :=
  { code := BitVec.ofNat 11 (g.toNat + 256 * ((a.toNat >>> 5) &&& 7))
    color := BitVec.ofNat 4 (a.toNat &&& 0x0F)
    flipx := a.getLsbD 4 }

/-- `TILEINFO(L, c)` from the current RAM (R99). -/
def tileInfo (cfg : Config) (s : State) (L : LayerId) (c : Nat) : TileInfo :=
  tileInfoOf (memRead cfg s (tileRegion L .gfx) c) (memRead cfg s (tileRegion L .attr) c)

/-- One turn of the refresh loop: re-derive cell `c` if it is dirty, clear its bit and count it (R110). -/
def TileLayer.refreshCell (derive : Nat → TileInfo) (l : TileLayer) (c : Nat) : TileLayer :=
  if l.dirty.getLsbD c then
    { l.clearDirty c with
      cache := l.cache.setIfInBounds c (some (derive c))
      rederive := l.rederive + 1 }
  else l

/-- `REFRESH(L)`: the loop over cells 0..1023 (R110). Irreducible, so that no proof unrolls the loop by
accident. -/
@[irreducible] def TileLayer.refresh (derive : Nat → TileInfo) (l : TileLayer) : TileLayer :=
  (List.range 1024).foldl (TileLayer.refreshCell derive) l

/-- The horizontal scroll of a layer: SCROLL for the foreground, 0 for the background (R109, R114). -/
def layerScroll (s : State) : LayerId → Nat
  | .fg => s.scroll.toNat
  | .bg => 0

/-- The layer-image coordinate `(tx, ty)` of screen pixel `(sx, sy)`: the flip mirrors first, then scroll
and the fixed offset 8 apply, modulo 256 (R114). -/
def layerCoord (flip : Bool) (xs : Nat) (sx sy : Fin 256) : Nat × Nat :=
  let qx := if flip then 255 - sx.val else sx.val
  let qy := if flip then 255 - sy.val else sy.val
  ((qx + xs) % 256, (qy + 8) % 256)

/-- The cell of a layer-image coordinate, row-major (R98, R115). -/
def cellAt (t : Nat × Nat) : Nat := (t.2 / 8) * 32 + t.1 / 8

/-- `TILE_GFX_L` (R115). -/
def tileGfx (cfg : Config) : LayerId → BitVec 11 → BitVec 3 → BitVec 3 → BitVec cfg.tileBpp
  | .fg => cfg.tileGfxFg
  | .bg => cfg.tileGfxBg

/-- `L_COLOR_BASE` (R115). -/
def colorBase (cfg : Config) : LayerId → Nat
  | .fg => cfg.fgColorBase
  | .bg => cfg.bgColorBase

/-- The raw pixel value of a cell at layer-image coordinate `t`; the cell's flip-x mirrors its 8 columns
(R115). -/
def tilePix (cfg : Config) (L : LayerId) (i : TileInfo) (t : Nat × Nat) : Nat :=
  let u := if i.flipx then 7 - t.1 % 8 else t.1 % 8
  (tileGfx cfg L i.code (BitVec.ofNat 3 u) (BitVec.ofNat 3 (t.2 % 8))).toNat

/-- The pen of a layer pixel: base + colour·2^TILE_BPP + pix (R115). -/
def tilePen (cfg : Config) (L : LayerId) (i : TileInfo) (pix : Nat) : Pen :=
  colorBase cfg L + i.color.toNat * 2 ^ cfg.tileBpp + pix

/-- What a cell puts on a pixel: its pen, or nothing where the foreground pixel value is 0; the background
has no transparent value (R116, R117). -/
def tileInk (cfg : Config) (L : LayerId) (i : TileInfo) (t : Nat × Nat) : Option Pen :=
  if L = .bg ∨ tilePix cfg L i t ≠ 0 then some (tilePen cfg L i (tilePix cfg L i t)) else none

/-- What a layer's draw puts on screen pixel `(sx, sy)`: only inside the clip, from the cached tile info
(R117). An EMPTY cell, which no draw after a refresh meets (R112, R186), puts nothing. -/
def layerInk (cfg : Config) (s : State) (L : LayerId) (sx sy : Fin 256) : Option Pen :=
  let t := layerCoord s.flip (layerScroll s L) sx sy
  if InsidePixel s.clip sx sy then
    match (s.layer L).cache[cellAt t]? with
    | some (some i) => tileInk cfg L i t
    | _ => none
  else none

/-- `REFRESH(L)` on the state (R110). -/
def State.refresh (cfg : Config) (s : State) (L : LayerId) : State :=
  s.setLayer L ((s.layer L).refresh (tileInfo cfg s L))

/-- `LAYER_DRAW(L, FB, CLIP)`: refresh, then write every opaque pixel inside the clip (R117). -/
def drawLayer (cfg : Config) (s : State) (L : LayerId) : State :=
  let s := s.refresh cfg L
  { s with fb := s.fb.paint (layerInk cfg s L) }

end Sys2Proof.Machine
end

