-- ==== Sys2Proof/Machine/Compositor.lean ====
section
/-! DEFINITION. The frame compositor (R156 to R169): RENDER_FRAME as the sequence of R157, and the phase
table of R158. -/

namespace Sys2Proof.Machine

/-- Move the compositor to a phase. -/
def State.setPhase (s : State) (p : Phase) : State := { s with phase := p }

/-- The bank drawn first: PRI when the priority code is 1, else SEC (R157, R161). -/
def firstBank (p : BitVec 2) : Bank := if p = 1#2 then .pri else .sec

/-- The bank drawn second: the other one (R157, R161). -/
def secondBank (p : BitVec 2) : Bank := if p = 1#2 then .sec else .pri

/-- RENDER_FRAME's sequence (R157): background; foreground if the code is 0; both sprite banks; foreground
if the code is not 0. -/
def renderFrame (cfg : Config) (s : State) : State :=
  let p := s.prio
  let s := drawLayer cfg (s.setPhase .bg) .bg
  let s := if p = 0#2 then drawLayer cfg (s.setPhase .fgEarly) .fg else s
  let s := drawBank cfg (s.setPhase .sprFirst) (firstBank p)
  let s := drawBank cfg (s.setPhase .sprSecond) (secondBank p)
  let s := if p ≠ 0#2 then drawLayer cfg (s.setPhase .fgLate) .fg else s
  let s := s.setPhase .done
  (s.setPhase .idle).respond (.status .success)

/-- RENDER_FRAME (R157) -/
def execRenderFrame (s : State) : Host.Outcome State Fault Refusal :=
  .next (renderFrame Config.device s)

/-- The phase after `ph` under priority code `p` (R158, columns from, condition, to). -/
def nextPhase (p : BitVec 2) : Phase → Phase
  | .idle => .bg
  | .bg => if p = 0#2 then .fgEarly else .sprFirst
  | .fgEarly => .sprFirst
  | .sprFirst => .sprSecond
  | .sprSecond => if p ≠ 0#2 then .fgLate else .done
  | .fgLate => .done
  | .done => .idle

/-- The action on entry to a phase (R158, last column). -/
def enterPhase (cfg : Config) (p : BitVec 2) (s : State) (ph : Phase) : State :=
  match ph with
  | .idle => (s.setPhase .idle).respond (.status .success)
  | .bg => drawLayer cfg (s.setPhase .bg) .bg
  | .fgEarly => drawLayer cfg (s.setPhase .fgEarly) .fg
  | .sprFirst => drawBank cfg (s.setPhase .sprFirst) (firstBank p)
  | .sprSecond => drawBank cfg (s.setPhase .sprSecond) (secondBank p)
  | .fgLate => drawLayer cfg (s.setPhase .fgLate) .fg
  | .done => s.setPhase .done

/-- One transition of the phase table (R158). -/
def compositorStep (cfg : Config) (p : BitVec 2) (s : State) : State :=
  enterPhase cfg p s (nextPhase p s.phase)

end Sys2Proof.Machine
end

