-- ==== Sys2Proof/Machine/ControlLatch.lean ====
section
/-! DEFINITION. The transaction of the priority/mode latch (R147). -/

namespace Sys2Proof.Machine

/-- WR_CTRL (R147): the latch holds the byte; every field is decoded from it. -/
def execWrCtrl (d : Byte) (s : State) : Host.Outcome State Fault Refusal :=
  .next (s.setLatch d)

end Sys2Proof.Machine
end

