-- ==== Sys2Proof/Machine/PaletteDecoder.lean ====
section
/-! DEFINITION. The palette decoder's transaction (R89) and the use of the palette (R95). -/

namespace Sys2Proof.Machine

/-- Rebuild the palette (R89). -/
def State.rebuildPalette (cfg : Config) (s : State) : State := { s with palette := buildPalette cfg }

/-- PALETTE_BUILD (R89) -/
def execPaletteBuild (s : State) : Host.Outcome State Fault Refusal :=
  .next (s.rebuildPalette Config.device)

/-- The displayed colour of a framebuffer pixel, PALETTE[FB[sx][sy]] (R16, R95). The colour of a pen that is
not below N, which only the host can have left in FB, is a free value. -/
def displayedColour (cfg : Config) (s : State) (sx sy : Fin 256) : Rgb :=
  s.palette.getD (s.fb.get sx sy) (cfg.anyColour sx sy (s.fb.get sx sy))

end Sys2Proof.Machine
end

