-- ==== Sys2Proof/Machine/ResetStrobe.lean ====
section
/-! DEFINITION. The RESET transaction (R187 to R190). -/

namespace Sys2Proof.Machine

/-- Latch and scroll to 0, PHASE to IDLE, palette rebuilt; RAM, caches, dirty bits and counters stay
(R187, R188, R190). -/
def resetCore (cfg : Config) (s : State) : State :=
  (((s.setLatch 0x00).setScroll 0x00).setPhase .idle).rebuildPalette cfg

/-- RESET (R187) -/
def execReset (s : State) : Host.Outcome State Fault Refusal :=
  .next (resetCore Config.device s)

end Sys2Proof.Machine
end

