-- ==== Sys2Proof/Machine/TileLayers.lean ====
section
/-! DEFINITION. The transactions of the tile layer store (R100 to R108): tile RAM writes and reads, and the
scroll register. -/

namespace Sys2Proof.Machine

/-- Write one byte of a cell and mark exactly that cell dirty (R100 to R103). -/
def writeTile (cfg : Config) (s : State) (L : LayerId) (p : Plane) (c : Nat) (d : Byte) : State :=
  let s := memWrite cfg s (tileRegion L p) c d
  s.setLayer L ((s.layer L).markDirty c)

/-- Return one RAM byte to the issuer; no side effect (R104 to R107, R141, R142, R51). -/
def readRam (cfg : Config) (s : State) (r : Region) (i : Nat) : State :=
  s.respond (.byte (memRead cfg s r i))

/-- WR_FG_GFX (R100) -/
def execWrFgGfx (c : BitVec 10) (d : Byte) (s : State) : Host.Outcome State Fault Refusal :=
  .next (writeTile Config.device s .fg .gfx c.toNat d)

/-- WR_FG_ATTR (R101) -/
def execWrFgAttr (c : BitVec 10) (d : Byte) (s : State) : Host.Outcome State Fault Refusal :=
  .next (writeTile Config.device s .fg .attr c.toNat d)

/-- WR_BG_GFX (R102) -/
def execWrBgGfx (c : BitVec 10) (d : Byte) (s : State) : Host.Outcome State Fault Refusal :=
  .next (writeTile Config.device s .bg .gfx c.toNat d)

/-- WR_BG_ATTR (R103) -/
def execWrBgAttr (c : BitVec 10) (d : Byte) (s : State) : Host.Outcome State Fault Refusal :=
  .next (writeTile Config.device s .bg .attr c.toNat d)

/-- RD_FG_GFX (R104) -/
def execRdFgGfx (c : BitVec 10) (s : State) : Host.Outcome State Fault Refusal :=
  .next (readRam Config.device s (tileRegion .fg .gfx) c.toNat)

/-- RD_FG_ATTR (R105) -/
def execRdFgAttr (c : BitVec 10) (s : State) : Host.Outcome State Fault Refusal :=
  .next (readRam Config.device s (tileRegion .fg .attr) c.toNat)

/-- RD_BG_GFX (R106) -/
def execRdBgGfx (c : BitVec 10) (s : State) : Host.Outcome State Fault Refusal :=
  .next (readRam Config.device s (tileRegion .bg .gfx) c.toNat)

/-- RD_BG_ATTR (R107) -/
def execRdBgAttr (c : BitVec 10) (s : State) : Host.Outcome State Fault Refusal :=
  .next (readRam Config.device s (tileRegion .bg .attr) c.toNat)

/-- WR_SCROLL (R108): no dirty bit changes. -/
def execWrScroll (d : Byte) (s : State) : Host.Outcome State Fault Refusal :=
  .next (s.setScroll d)

end Sys2Proof.Machine
end

