-- ==== Sys2Proof/Machine/SpriteBanks.lean ====
section
/-! DEFINITION. The transactions of the sprite bank controller (R128, R129, R141, R142): sprite RAM writes
and reads, with no dirty tracking. -/

namespace Sys2Proof.Machine

/-- WR_SPR_PRI (R128) -/
def execWrSprPri (k : BitVec 5) (d : Byte) (s : State) : Host.Outcome State Fault Refusal :=
  .next (memWrite Config.device s (spriteRegion .pri) k.toNat d)

/-- WR_SPR_SEC (R129) -/
def execWrSprSec (k : BitVec 5) (d : Byte) (s : State) : Host.Outcome State Fault Refusal :=
  .next (memWrite Config.device s (spriteRegion .sec) k.toNat d)

/-- RD_SPR_PRI (R141) -/
def execRdSprPri (k : BitVec 5) (s : State) : Host.Outcome State Fault Refusal :=
  .next (readRam Config.device s (spriteRegion .pri) k.toNat)

/-- RD_SPR_SEC (R142) -/
def execRdSprSec (k : BitVec 5) (s : State) : Host.Outcome State Fault Refusal :=
  .next (readRam Config.device s (spriteRegion .sec) k.toNat)

end Sys2Proof.Machine
end

