-- ==== Sys2Proof/Machine/Dispatch.lean ====
section
/-! DEFINITION. One arm per transaction of the opcode table. -/

namespace Sys2Proof.Machine

def exec (i : Instr) (s : State) : Host.Outcome State Fault Refusal :=
  match i with
  | .wrFgGfx c d => Sys2Proof.Machine.execWrFgGfx c d s
  | .wrFgAttr c d => Sys2Proof.Machine.execWrFgAttr c d s
  | .wrBgGfx c d => Sys2Proof.Machine.execWrBgGfx c d s
  | .wrBgAttr c d => Sys2Proof.Machine.execWrBgAttr c d s
  | .wrSprPri k d => Sys2Proof.Machine.execWrSprPri k d s
  | .wrSprSec k d => Sys2Proof.Machine.execWrSprSec k d s
  | .wrScroll d => Sys2Proof.Machine.execWrScroll d s
  | .wrCtrl d => Sys2Proof.Machine.execWrCtrl d s
  | .rdFgGfx c => Sys2Proof.Machine.execRdFgGfx c s
  | .rdFgAttr c => Sys2Proof.Machine.execRdFgAttr c s
  | .rdBgGfx c => Sys2Proof.Machine.execRdBgGfx c s
  | .rdBgAttr c => Sys2Proof.Machine.execRdBgAttr c s
  | .rdSprPri k => Sys2Proof.Machine.execRdSprPri k s
  | .rdSprSec k => Sys2Proof.Machine.execRdSprSec k s
  | .renderFrame => Sys2Proof.Machine.execRenderFrame s
  | .paletteBuild => Sys2Proof.Machine.execPaletteBuild s
  | .reset => Sys2Proof.Machine.execReset s

end Sys2Proof.Machine
end

