-- ==== Sys2Proof/Machine/NoEffect.lean ====
section
/-! DEFINITION. The two decoded words that have no row in the opcode table (R74, R77). -/

namespace Sys2Proof.Machine

/-- A WRITE to 0x1042..0x1FFF: accepted, changes no state (R48). -/
def performUnmappedWrite (_a : PortAddr) (_d : Byte) (s : State) : Host.Outcome State Fault Refusal :=
  .next s

/-- A READ of 0x1040..0x1FFF: returns one fresh draw, changes no state of the core (R48, R60). -/
def performNoEffectRead (_a : PortAddr) (s : State) : Host.Outcome State Fault Refusal :=
  .next (s.respondAny Config.device)

end Sys2Proof.Machine
end

