-- ==== Sys2Proof/Machine/Step.lean ====
section
/-! DEFINITION. One step: perform the first transaction waiting at the port; with none waiting, hold the
state (R41, R52, R184). -/

namespace Sys2Proof.Machine

/-- Perform a decoded word: one of the four results of R77. -/
def perform (w : Decoded) (s : State) : Host.Outcome State Fault Refusal :=
  match w with
  | .row i => exec i s
  | .unmappedWrite a d => performUnmappedWrite a d s
  | .noEffectRead a => performNoEffectRead a s
  | .refused e => .refused (.reservedWord e)

/-- One step of the machine: one transaction (R52), or nothing when the port is idle (R184). -/
def step (s : State) : Host.Outcome State Fault Refusal :=
  match s.port with
  | [] => .next s
  | r :: rest => perform (decode r.word) (s.accept r rest)

/-- The state with this transaction word at the head of the port, before whatever waits already: the very
next step performs it. -/
def State.withFetchWord (s : State) (nbits w : Nat) : State :=
  { s with port := Request.ofWord (tableWord nbits w) :: s.port }

end Sys2Proof.Machine
end

