-- ==== Sys2Proof/Safety.lean ====
section
/-! DEFINITION. What the claims are stated in: the invariants of the core (R38, R33, R29), and the picture a
render must give, written from the RAM alone and not from the caches (R165). -/

namespace Sys2Proof.Machine

/-- Cache coherence of one layer (R38): a cell that is not dirty holds `TILEINFO` of the current RAM. -/
def Coherent (cfg : Config) (s : State) (L : LayerId) : Prop :=
  ∀ c : Fin 1024, (s.layer L).dirty.getLsbD c = false →
    (s.layer L).cache[c] = some (tileInfo cfg s L c)

/-- What every state between transactions satisfies: canonical memory, both caches coherent (R38), the
palette built (R29, R90), PHASE idle (R33). -/
structure Inv (cfg : Config) (s : State) : Prop where
  memory : Memory.wf cfg.powerUpByte s.mem
  fgCoherent : Coherent cfg s .fg
  bgCoherent : Coherent cfg s .bg
  palette : s.palette = buildPalette cfg
  phase : s.phase = .idle

/-- Every pen of a framebuffer is below N (R16). -/
def Frame.PensBelow (n : Nat) (f : Frame) : Prop := ∀ sx sy : Fin 256, f.get sx sy < n

/-- The framebuffer at hand and those that wait at the port hold only pens below N (R16). -/
def FramesBelow (cfg : Config) (s : State) : Prop :=
  s.fb.PensBelow cfg.paletteEntries ∧
    ∀ r ∈ s.port, ∀ f, r.fb = some f → f.PensBelow cfg.paletteEntries

/-- How many cells are dirty. -/
def dirtyCount (d : BitVec 1024) : Nat := (List.range 1024).countP (fun c => d.getLsbD c)

/-- What layer `L` shows at a screen pixel, from the RAM: its pen, or nothing where it is transparent
(R114 to R116). -/
def layerSource (cfg : Config) (s : State) (L : LayerId) (sx sy : Fin 256) : Option Pen :=
  let t := layerCoord s.flip (layerScroll s L) sx sy
  tileInk cfg L (tileInfo cfg s L (cellAt t)) t

/-- The column or row of the cell that lands at distance `k` from the box's corner: mirrored or not
(R138). -/
def unmirror (mirrored : Bool) (size : Nat) (k : Int) : Nat :=
  if mirrored then size - 1 - k.toNat else k.toNat

/-- What a decoded sprite shows at a point of the plane: the pen of the pixel of its cell that lands there,
or nothing where there is none or its value is 0 (R138). -/
def spriteSource (cfg : Config) (d : Sprite) (x y : Int) : Option Pen :=
  if 0 ≤ x - d.x ∧ x - d.x < cfg.spriteW ∧ 0 ≤ y - d.y ∧ y - d.y < cfg.spriteH then
    let pix := (cfg.spriteGfx d.code (unmirror d.flipx cfg.spriteW (x - d.x))
      (unmirror d.flipy cfg.spriteH (y - d.y))).toNat
    if pix ≠ 0 then some (spritePen cfg d pix) else none
  else none

/-- What a bank shows at a screen pixel: the lowest-indexed slot that is opaque there (R140). -/
def bankSource (cfg : Config) (s : State) (bank : Bank) (sx sy : Fin 256) : Option Pen :=
  [0, 1, 2, 3, 4, 5, 6, 7].findSome? fun slot =>
    spriteSource cfg (spriteAt cfg s bank slot) (sx.val : Int) (sy.val : Int)

/-- The background's pen at a screen pixel: it has no transparent value (R116). -/
def backgroundPen (cfg : Config) (s : State) (sx sy : Fin 256) : Pen :=
  let t := layerCoord s.flip (layerScroll s .bg) sx sy
  let i := tileInfo cfg s .bg (cellAt t)
  tilePen cfg .bg i (tilePix cfg .bg i t)

/-- The visible pen of a pixel inside the clip: the first source of R165's list that applies. -/
def visiblePen (cfg : Config) (s : State) (sx sy : Fin 256) : Pen :=
  let f := layerSource cfg s .fg sx sy
  let sp := bankSource cfg s .pri sx sy
  let ss := bankSource cfg s .sec sx sy
  let top :=
    if s.prio = 0#2 then sp.or (ss.or f)
    else if s.prio = 1#2 then f.or (ss.or sp)
    else f.or (sp.or ss)
  top.getD (backgroundPen cfg s sx sy)

/-! ### Runs -/

/-- Perform transactions one after another; `none` if one of them gives no next state. -/
def execAll : List Instr → State → Option State
  | [], s => some s
  | i :: rest, s =>
    match exec i s with
    | .next t => execAll rest t
    | .fault _ => none
    | .refused _ => none

/-- The word is reserved (R73), read off its bits. -/
def ReservedWord (w : Word) : Prop :=
  w.extractLsb' 22 2 = 0b11#2 ∨ w.getLsbD 21 = true ∨
    (w.extractLsb' 22 2 = 0b10#2 ∧ w.extractLsb' 2 20 ≠ 0#20) ∨
    (w.extractLsb' 22 2 = 0b10#2 ∧ w.extractLsb' 0 2 = 0b11#2)

/-- The word is a WRITE to port address `a` (R64, R65). -/
abbrev IsWriteTo (w : Word) (a : PortAddr) : Prop :=
  w.extractLsb' 22 2 = 0b00#2 ∧ w.getLsbD 21 = false ∧ w.extractLsb' 8 13 = a

/-- The word is a READ of port address `a` (R64, R66). -/
abbrev IsReadOf (w : Word) (a : PortAddr) : Prop :=
  w.extractLsb' 22 2 = 0b01#2 ∧ w.getLsbD 21 = false ∧ w.extractLsb' 8 13 = a

/-- The byte at port address `a` after a history of transactions: the data of the last WRITE to `a`, or the
byte `old` that was there (R53). -/
def lastWrite (a : PortAddr) (history : List Request) (old : Byte) : Byte :=
  history.foldl (fun b r => if IsWriteTo r.word a then r.word.extractLsb' 0 8 else b) old

/-- The cell of layer `L` a transaction writes, if it writes one (R100 to R103). -/
def writtenCell : LayerId → Instr → Option Nat
  | .fg, .wrFgGfx c _ => some c.toNat
  | .fg, .wrFgAttr c _ => some c.toNat
  | .bg, .wrBgGfx c _ => some c.toNat
  | .bg, .wrBgAttr c _ => some c.toNat
  | _, _ => none

/-- One of the four draws of a render (R164). -/
inductive Draw where
  | layer (l : LayerId)
  | bank (b : Bank)
  deriving DecidableEq, Repr

/-- R164's table: the draw order of a priority code, earliest first. -/
def drawOrder (p : BitVec 2) : List Draw :=
  if p = 0#2 then [.layer .bg, .layer .fg, .bank .sec, .bank .pri]
  else if p = 1#2 then [.layer .bg, .bank .pri, .bank .sec, .layer .fg]
  else [.layer .bg, .bank .sec, .bank .pri, .layer .fg]

/-- Perform one draw (R117, R139). -/
def performDraw (cfg : Config) (s : State) : Draw → State
  | .layer l => drawLayer cfg s l
  | .bank b => drawBank cfg s b

end Sys2Proof.Machine
end

