-- ==== Sys2Proof/Certificates/Slice0/Obligations.lean ====
section
/-! DEFINITION. The statements for the provers. Each says what the spec's rules say of the machine that runs
on `Config.device`, the opaque well-formed configuration. A frame is written as an equation: `t = { s with
mem := t.mem }` says that `t` differs from `s` at most in `mem`. -/

open Sys2Proof Sys2Proof.Machine

/-! ### Power-up and the step -/

/-- R186: the state after power-up. RAM bytes are draws (free values); the first render derives all 1024
cells of each layer, and no cell it draws from is EMPTY or stale. -/
def Obligations.PowerUpState : Prop :=
  (∀ a, ramByte Config.device State.reset a = Config.device.powerUpByte a) ∧
  State.reset.scroll = 0x00#8 ∧ State.reset.latch = 0x00#8 ∧
  State.reset.nmiEn = false ∧ State.reset.flip = false ∧ State.reset.prio = 0#2 ∧
  State.reset.romBank = false ∧
  State.reset.palette = buildPalette Config.device ∧
  (∀ L, ∀ c : Fin 1024, (State.reset.layer L).cache[c] = none ∧
    (State.reset.layer L).dirty.getLsbD c = true) ∧
  (∀ L, (State.reset.layer L).rederive = 0) ∧
  State.reset.phase = .idle ∧
  State.reset.outNmiEn = false ∧ State.reset.outFlip = false ∧ State.reset.outRomBank = false ∧
  ∃ t, exec .renderFrame State.reset = .next t ∧
    ∀ L, (t.layer L).rederive = 1024 ∧
      ∀ c : Fin 1024, (t.layer L).cache[c] = some (tileInfo Config.device State.reset L c)

/-- A step performs the decoded transaction at the head of the port, on the state that has taken it: the
rest waits, the operands are the request's, and nothing has been returned yet. -/
def Obligations.StepPerformsTheTransactionAtThePort : Prop :=
  ∀ (s : State) (r : Request) (rest : List Request) (i : Instr),
    s.port = r :: rest → decode r.word = .row i →
    step s = exec i { s with port := rest, clip := r.clip, fb := r.fb.getD s.fb, response := .none }

/-- With nothing at the port the machine holds its state (R41, R184). -/
def Obligations.IdlePortHoldsTheState : Prop :=
  ∀ s : State, s.port = [] → step s = .next s

/-- What withFetchWord places is what the very next step performs, and the decoder reads the same word. -/
def Obligations.FetchedWordIsPerformed : Prop :=
  ∀ (s : State) (w : Word) (i : Instr), decode w = .row i →
    decodeTableWord 24 w.toNat = some i ∧
    step (s.withFetchWord 24 w.toNat) = exec i { s with clip := Clip.full, response := .none }

/-! ### Encoding -/

/-- Words written out in the spec's vectors decode to the transactions they stand for. -/
def Obligations.SpecWordsDecode : Prop :=
  decode 0x002112#24 = .row (.wrFgGfx 33 0x12) ∧ decode 0x0421B5#24 = .row (.wrFgAttr 33 0xB5) ∧
  decode 0x0800FF#24 = .row (.wrBgGfx 0 0xFF) ∧ decode 0x0FFF10#24 = .row (.wrBgAttr 1023 0x10) ∧
  decode 0x100BF8#24 = .row (.wrSprPri 11 0xF8) ∧ decode 0x103F5C#24 = .row (.wrSprSec 31 0x5C) ∧
  decode 0x104010#24 = .row (.wrScroll 0x10) ∧ decode 0x104132#24 = .row (.wrCtrl 0x32) ∧
  decode 0x400500#24 = .row (.rdFgGfx 5) ∧ decode 0x4FFF00#24 = .row (.rdBgAttr 1023) ∧
  decode 0x503F00#24 = .row (.rdSprSec 31) ∧ decode 0x800000#24 = .row .renderFrame ∧
  decode 0x800001#24 = .row .paletteBuild ∧ decode 0x800002#24 = .row .reset

/-- Decoding an encoded transaction gives it back, with every operand at every value. -/
def Obligations.DecodeOfEncodeIsIdentity : Prop :=
  ∀ i : Instr, decode (encode i) = .row i

/-- Encoding what a word decodes to gives the word back, but for the ignored bits 7:0 of a READ. -/
def Obligations.EncodeOfDecodedWord : Prop :=
  ∀ (w : Word) (i : Instr), decode w = .row i →
    encode i = if w.extractLsb' 22 2 = 0b01#2 then w &&& 0xFFFF00#24 else w

/-- R77: the four results of the decoder. A word matches a row of the opcode table exactly when it decodes to
a transaction of that row; the rows do not overlap; an unmapped WRITE and a no-effect READ are exactly the
words R74 names; the rest is refused. -/
def Obligations.DecoderHasFourResults : Prop :=
  (∀ (w : Word) (r : TableRow), r ∈ opcodeTable →
    (w &&& r.mask = r.pattern ↔ ∃ i, decode w = .row i ∧ i.row = r)) ∧
  (∀ (w : Word) (i : Instr), decode w = .row i → i.row ∈ opcodeTable) ∧
  (opcodeTable.Pairwise fun r q => ∀ w : Word, ¬ (w &&& r.mask = r.pattern ∧ w &&& q.mask = q.pattern)) ∧
  (∀ (w : Word) (a : PortAddr) (d : Byte),
    decode w = .unmappedWrite a d ↔ IsWriteTo w a ∧ w.extractLsb' 0 8 = d ∧ 0x1042 ≤ a.toNat) ∧
  (∀ (w : Word) (a : PortAddr), decode w = .noEffectRead a ↔ IsReadOf w a ∧ 0x1040 ≤ a.toNat) ∧
  (∀ w : Word, (∃ e, decode w = .refused e) ↔ ReservedWord w)

/-- R73: a reserved word is refused by the decoder and by the step, whatever the state. -/
def Obligations.ReservedWordsAreRefused : Prop :=
  ∀ (s : State) (r : Request) (rest : List Request), ReservedWord r.word →
    ∃ e, decode r.word = .refused e ∧
      step { s with port := r :: rest } = .refused (.reservedWord e)

/-- R78, R79: the words of the assembler's lines are the encodings of the transactions they name, and a
pseudo-instruction's are its expansion's, in order. A RENDER_FRAME line's clip is its own operands', and the whole
framebuffer where it has none. -/
def Obligations.AssemblerLinesEncode : Prop :=
  (∀ (c : BitVec 10) (d : Byte),
    (AsmLine.wrTile .fg .gfx c.toNat d.toNat).words = some [encode (.wrFgGfx c d)] ∧
    (AsmLine.wrTile .fg .attr c.toNat d.toNat).words = some [encode (.wrFgAttr c d)] ∧
    (AsmLine.wrTile .bg .gfx c.toNat d.toNat).words = some [encode (.wrBgGfx c d)] ∧
    (AsmLine.wrTile .bg .attr c.toNat d.toNat).words = some [encode (.wrBgAttr c d)]) ∧
  (∀ (c : BitVec 10),
    (AsmLine.rdTile .fg .gfx c.toNat).words = some [encode (.rdFgGfx c)] ∧
    (AsmLine.rdTile .fg .attr c.toNat).words = some [encode (.rdFgAttr c)] ∧
    (AsmLine.rdTile .bg .gfx c.toNat).words = some [encode (.rdBgGfx c)] ∧
    (AsmLine.rdTile .bg .attr c.toNat).words = some [encode (.rdBgAttr c)]) ∧
  (∀ (k : BitVec 5) (d : Byte),
    (AsmLine.wrSprite .pri (slotOf k).toNat (byteOf k).toNat d.toNat).words = some [encode (.wrSprPri k d)] ∧
    (AsmLine.wrSprite .sec (slotOf k).toNat (byteOf k).toNat d.toNat).words = some [encode (.wrSprSec k d)] ∧
    (AsmLine.rdSprite .pri (slotOf k).toNat (byteOf k).toNat).words = some [encode (.rdSprPri k)] ∧
    (AsmLine.rdSprite .sec (slotOf k).toNat (byteOf k).toNat).words = some [encode (.rdSprSec k)]) ∧
  (∀ d : Byte, (AsmLine.wrScroll d.toNat).words = some [encode (.wrScroll d)] ∧
    (AsmLine.wrCtrl d.toNat).words = some [encode (.wrCtrl d)]) ∧
  (∀ (a : PortAddr) (d : Byte), (AsmLine.wr a.toNat d.toNat).words = some [encodeWrite a d] ∧
    (AsmLine.rd a.toNat).words = some [encodeRead a]) ∧
  (∀ (L : LayerId) (c : BitVec 10) (g t : Byte), (AsmLine.tile L c.toNat g.toNat t.toNat).words =
    (do return (← (AsmLine.wrTile L .gfx c.toNat g.toNat).words) ++
      (← (AsmLine.wrTile L .attr c.toNat t.toNat).words))) ∧
  (∀ (b : Bank) (s : BitVec 3) (y m a x : Byte),
    (AsmLine.sprite b s.toNat y.toNat m.toNat a.toNat x.toNat).words =
      (do return (← (AsmLine.wrSprite b s.toNat 0 y.toNat).words) ++
        (← (AsmLine.wrSprite b s.toNat 1 m.toNat).words) ++
        (← (AsmLine.wrSprite b s.toNat 2 a.toNat).words) ++
        (← (AsmLine.wrSprite b s.toNat 3 x.toNat).words))) ∧
  (∀ (b : Bank) (s : BitVec 3),
    (AsmLine.spriteZero b s.toNat).words = (AsmLine.sprite b s.toNat 0 0 0 0).words) ∧
  (∀ (nmi flip rbank : BitVec 1) (prio : BitVec 2),
    (AsmLine.ctrl nmi.toNat flip.toNat prio.toNat rbank.toNat).words =
      (AsmLine.wrCtrl (nmi.toNat + flip.toNat * 2 + prio.toNat * 16 + rbank.toNat * 64)).words) ∧
  (∀ (b3 : BitVec 3) (f : BitVec 1) (col : BitVec 4),
    attrByte b3.toNat f.toNat col.toNat = b3.toNat * 32 + f.toNat * 16 + col.toNat ∧
    attrByte b3.toNat f.toNat col.toNat < 256) ∧
  (AsmLine.renderFrame.words = some [encode .renderFrame] ∧ AsmLine.renderFrame.clip.minx = 0 ∧
    AsmLine.renderFrame.clip.maxx = 255 ∧ AsmLine.renderFrame.clip.miny = 0 ∧
    AsmLine.renderFrame.clip.maxy = 255) ∧
  (∀ c : Clip, (AsmLine.renderFrameIn c.minx c.maxx c.miny c.maxy).words = some [encode .renderFrame] ∧
    (AsmLine.renderFrameIn c.minx c.maxx c.miny c.maxy).clip = c) ∧
  AsmLine.paletteBuild.words = some [encode .paletteBuild] ∧
  AsmLine.reset.words = some [encode .reset] ∧
  AsmLine.nop.words = (AsmLine.wr 0x1FFF 0).words ∧ AsmLine.nop.words = some [0x1FFF00#24]

/-! ### Words with no row -/

/-- R48: a WRITE to an unmapped address changes no state; a READ of one returns a draw and changes no state
of the core. The model's own choices in it: the request's CLIP and FB are taken although it is no render (log
entry 2), the response is a field that the step clears (log entry 3), and the draw is `portByte` of the counter of
draws, which moves on (log entry 4). -/
def Obligations.UnmappedAddressesHaveNoEffect : Prop :=
  ∀ (s : State) (r : Request) (rest : List Request) (a : PortAddr), 0x1042 ≤ a.toNat →
    (IsWriteTo r.word a → step { s with port := r :: rest } =
      .next { s with port := rest, clip := r.clip, fb := r.fb.getD s.fb, response := .none }) ∧
    (IsReadOf r.word a → step { s with port := r :: rest } =
      .next { s with port := rest, clip := r.clip, fb := r.fb.getD s.fb,
                     response := .byte (Config.device.portByte s.draws), draws := s.draws + 1 })

/-- R60: a READ of SCROLL or LATCH returns a draw and changes no state of the core; what it returns does not
depend on the register's value. The model's own choices in it: the request's CLIP and FB are taken (log entry 2),
the response is a field (log entry 3), and the draw depends on the counter of draws alone, which moves on (log
entry 4): that the byte is the same for every SCROLL and LATCH rests on that. -/
def Obligations.WriteOnlyRegistersDoNotReadBack : Prop :=
  ∀ (s : State) (scroll latch : Byte) (r : Request) (rest : List Request) (a : PortAddr),
    a = 0x1040#13 ∨ a = 0x1041#13 → IsReadOf r.word a →
    ∃ b, step { s with port := r :: rest } =
        .next { s with port := rest, clip := r.clip, fb := r.fb.getD s.fb,
                       response := .byte b, draws := s.draws + 1 } ∧
      step { s with port := r :: rest, scroll := scroll, latch := latch } =
        .next { s with port := rest, clip := r.clip, fb := r.fb.getD s.fb,
                       response := .byte b, draws := s.draws + 1, scroll := scroll, latch := latch }

/-! ### Tile layer store -/

/-- What a write of one tile byte does: the byte is stored and exactly its cell becomes dirty; every other
byte of memory, every other dirty bit, both caches, both counters, the other layer and every register stay;
the word is the WRITE of that address. -/
def TileWriteEffect (i : Instr) (L : LayerId) (p : Plane) (c : BitVec 10) (d : Byte) (s : State) : Prop :=
  (encode i).toNat = ((tileRegion L p).base + c.toNat) * 0x100 + d.toNat ∧
  ∃ t, exec i s = .next t ∧
    memRead Config.device t (tileRegion L p) c.toNat = d ∧
    (∀ a, a ≠ (tileRegion L p).base + c.toNat → ramByte Config.device t a = ramByte Config.device s a) ∧
    (∀ b : Fin 1024, (t.layer L).dirty.getLsbD b =
      ((s.layer L).dirty.getLsbD b || decide (b.val = c.toNat))) ∧
    (t.layer L).cache = (s.layer L).cache ∧ (t.layer L).rederive = (s.layer L).rederive ∧
    (∀ M, M ≠ L → t.layer M = s.layer M) ∧
    t = { s with mem := t.mem, fg := t.fg, bg := t.bg }

/-- R100 to R103: the four tile writes. -/
def Obligations.TileWritesStoreAndMarkTheirCell : Prop :=
  ∀ (c : BitVec 10) (d : Byte) (s : State),
    TileWriteEffect (.wrFgGfx c d) .fg .gfx c d s ∧ TileWriteEffect (.wrFgAttr c d) .fg .attr c d s ∧
    TileWriteEffect (.wrBgGfx c d) .bg .gfx c d s ∧ TileWriteEffect (.wrBgAttr c d) .bg .attr c d s

/-- What a READ of one RAM byte does: it returns the byte and changes nothing. -/
def RamReadEffect (i : Instr) (r : Region) (k : Nat) (s : State) : Prop :=
  (encode i).toNat = 0x400000 + (r.base + k) * 0x100 ∧
  exec i s = .next { s with response := .byte (memRead Config.device s r k) }

/-- R104 to R107: the four tile reads, and what they return before any write since power-up. -/
def Obligations.TileReadsReturnTheByte : Prop :=
  (∀ (c : BitVec 10) (s : State),
    RamReadEffect (.rdFgGfx c) .fgGfx c.toNat s ∧ RamReadEffect (.rdFgAttr c) .fgAttr c.toNat s ∧
    RamReadEffect (.rdBgGfx c) .bgGfx c.toNat s ∧ RamReadEffect (.rdBgAttr c) .bgAttr c.toNat s) ∧
  (∀ (L : LayerId) (p : Plane) (c : BitVec 10), memRead Config.device State.reset (tileRegion L p) c.toNat =
    Config.device.powerUpByte ((tileRegion L p).base + c.toNat))

/-- R108: WR_SCROLL sets SCROLL and nothing else, no dirty bit either; a READ of its address is a no-effect
READ. -/
def Obligations.WriteScrollSetsScroll : Prop :=
  (∀ (d : Byte) (s : State), (encode (.wrScroll d)).toNat = 0x1040 * 0x100 + d.toNat ∧
    exec (.wrScroll d) s = .next { s with scroll := d }) ∧
  decode 0x504000#24 = .noEffectRead 0x1040#13

/-- R99: tile-info derivation, with exact ranges. -/
def Obligations.TileInfoDerivation : Prop :=
  ∀ (s : State) (L : LayerId) (c : Nat),
    let g := memRead Config.device s (tileRegion L .gfx) c
    let a := memRead Config.device s (tileRegion L .attr) c
    (tileInfo Config.device s L c).code.toNat = g.toNat + 256 * (a.toNat / 32 % 8) ∧
    (tileInfo Config.device s L c).color.toNat = a.toNat % 16 ∧
    (tileInfo Config.device s L c).flipx = decide (a.toNat / 16 % 2 = 1)

/-- R110: a render re-derives, for each layer, exactly the cells that were dirty, clears every dirty bit, and
counts one derivation per such cell; no other transaction re-derives a cell or counts. -/
def Obligations.RenderRefreshesDirtyCells : Prop :=
  (∀ s : State, ∃ t, exec .renderFrame s = .next t ∧ ∀ L,
    (∀ c : Fin 1024, (t.layer L).cache[c] =
      if (s.layer L).dirty.getLsbD c then some (tileInfo Config.device s L c) else (s.layer L).cache[c]) ∧
    (t.layer L).dirty = 0#1024 ∧
    (t.layer L).rederive = (s.layer L).rederive + dirtyCount (s.layer L).dirty) ∧
  (∀ (i : Instr) (s t : State), i ≠ .renderFrame → exec i s = .next t → ∀ L,
    (t.layer L).cache = (s.layer L).cache ∧ (t.layer L).rederive = (s.layer L).rederive ∧
    ∀ c : Fin 1024, (s.layer L).dirty.getLsbD c = true → (t.layer L).dirty.getLsbD c = true)

/-- R111: between two renders with no render between them, the second re-derives of each layer exactly as
many cells as distinct cells of it were written. -/
def Obligations.RederivationsCountDistinctCellsWritten : Prop :=
  ∀ (s t u : State) (between : List Instr), exec .renderFrame s = .next t → .renderFrame ∉ between →
    execAll between t = some u →
    ∃ v, exec .renderFrame u = .next v ∧ ∀ L,
      (v.layer L).rederive = (t.layer L).rederive + ((between.filterMap (writtenCell L)).dedup).length

/-- R113: only a write to a layer's own tile RAM and a render touch its cache, its dirty bits or its
counter. -/
def Obligations.OnlyTileWritesAndRendersTouchTheCache : Prop :=
  ∀ (i : Instr) (s t : State) (L : LayerId), i ≠ .renderFrame → writtenCell L i = none →
    exec i s = .next t → t.layer L = s.layer L

/-- R114: source coordinates of a layer pixel, in each of its cases. -/
def Obligations.LayerCoordinates : Prop :=
  ∀ (s : State) (sx sy : Fin 256),
    (s.flip = true →
      layerCoord s.flip (layerScroll s .fg) sx sy =
        ((255 - sx.val + s.scroll.toNat) % 256, (255 - sy.val + 8) % 256) ∧
      layerCoord s.flip (layerScroll s .bg) sx sy = ((255 - sx.val + 0) % 256, (255 - sy.val + 8) % 256)) ∧
    (s.flip = false →
      layerCoord s.flip (layerScroll s .fg) sx sy = ((sx.val + s.scroll.toNat) % 256, (sy.val + 8) % 256) ∧
      layerCoord s.flip (layerScroll s .bg) sx sy = ((sx.val + 0) % 256, (sy.val + 8) % 256))

/-- R109: the background does not scroll: its picture is the same whatever SCROLL holds. -/
def Obligations.BackgroundIgnoresScroll : Prop :=
  ∀ (s : State) (d : Byte) (sx sy : Fin 256),
    (drawLayer Config.device { s with scroll := d } .bg).fb.get sx sy =
      (drawLayer Config.device s .bg).fb.get sx sy

/-- R98, R115, R116: for every configuration, tile info and layer-image coordinate: the cell of the coordinate and
its place in the grid; the pixel value, with the cell's flip-x mirroring its columns; the pen; and that a foreground
pixel value 0 draws nothing while the background always draws. -/
def Obligations.TilePixelAndPen : Prop :=
  ∀ (cfg : Config) (i : TileInfo) (tx ty : Fin 256),
    let t := (tx.val, ty.val)
    let u : BitVec 3 := BitVec.ofNat 3 (tx.val % 8)
    let v : BitVec 3 := BitVec.ofNat 3 (ty.val % 8)
    let u' := if i.flipx then 7#3 - u else u
    (cellAt t = ty.val / 8 * 32 + tx.val / 8 ∧ cellAt t < 1024 ∧ cellAt t % 32 = tx.val / 8 ∧
      cellAt t / 32 = ty.val / 8) ∧
    (tilePix cfg .fg i t = (cfg.tileGfxFg i.code u' v).toNat ∧ tilePix cfg .bg i t = (cfg.tileGfxBg i.code u' v).toNat ∧
      ∀ L, tilePix cfg L i t ≤ 2 ^ cfg.tileBpp - 1) ∧
    (∀ pix, tilePen cfg .fg i pix = cfg.fgColorBase + i.color.toNat * 2 ^ cfg.tileBpp + pix ∧
      tilePen cfg .bg i pix = cfg.bgColorBase + i.color.toNat * 2 ^ cfg.tileBpp + pix) ∧
    tileInk cfg .fg i t =
      (if (cfg.tileGfxFg i.code u' v).toNat = 0 then none
        else some (cfg.fgColorBase + i.color.toNat * 2 ^ cfg.tileBpp + (cfg.tileGfxFg i.code u' v).toNat)) ∧
    tileInk cfg .bg i t =
      some (cfg.bgColorBase + i.color.toNat * 2 ^ cfg.tileBpp + (cfg.tileGfxBg i.code u' v).toNat)

/-- R99, R114 to R117: a layer draw, written out from the RAM's bytes to the framebuffer's pens, for every
configuration. Inside the clip every background pixel and every opaque foreground pixel is written; every other pixel
stays. -/
def Obligations.LayerDrawOfEveryPixel : Prop :=
  ∀ (cfg : Config) (s : State) (sx sy : Fin 256),
    let qx := if s.flip then 255 - sx.val else sx.val
    let qy := if s.flip then 255 - sy.val else sy.val
    let ty := (qy + 8) % 256
    let pixel := fun (gfx : BitVec 11 → BitVec 3 → BitVec 3 → BitVec cfg.tileBpp) (g a : Byte) (tx : Nat) =>
      (gfx (BitVec.ofNat 11 (g.toNat + 256 * (a.toNat / 32 % 8)))
        (BitVec.ofNat 3 (if a.toNat / 16 % 2 = 1 then 7 - tx % 8 else tx % 8)) (BitVec.ofNat 3 (ty % 8))).toNat
    (Coherent cfg s .bg →
      let tx := qx
      let c := ty / 8 * 32 + tx / 8
      let a := ramByte cfg s (0x0C00 + c)
      let pix := pixel cfg.tileGfxBg (ramByte cfg s (0x0800 + c)) a tx
      (drawLayer cfg s .bg).fb.get sx sy =
        if InsidePixel s.clip sx sy then cfg.bgColorBase + a.toNat % 16 * 2 ^ cfg.tileBpp + pix
        else s.fb.get sx sy) ∧
    (Coherent cfg s .fg →
      let tx := (qx + s.scroll.toNat) % 256
      let c := ty / 8 * 32 + tx / 8
      let a := ramByte cfg s (0x0400 + c)
      let pix := pixel cfg.tileGfxFg (ramByte cfg s (0x0000 + c)) a tx
      (drawLayer cfg s .fg).fb.get sx sy =
        if InsidePixel s.clip sx sy ∧ pix ≠ 0 then cfg.fgColorBase + a.toNat % 16 * 2 ^ cfg.tileBpp + pix
        else s.fb.get sx sy)

/-! ### Sprite bank controller -/

/-- R128, R129: the sprite writes store the byte and change nothing else; the next decode of the slot sees
it. -/
def Obligations.SpriteWritesStoreTheByte : Prop :=
  ∀ (k : BitVec 5) (d : Byte) (s : State) (b : Bank),
    let i : Instr := match b with | .pri => .wrSprPri k d | .sec => .wrSprSec k d
    (encode i).toNat = ((spriteRegion b).base + k.toNat) * 0x100 + d.toNat ∧
    ∃ t, exec i s = .next t ∧
      memRead Config.device t (spriteRegion b) k.toNat = d ∧
      memRead Config.device t (spriteRegion b) (slotByte (slotOf k).toNat (byteOf k).toNat) = d ∧
      (∀ a, a ≠ (spriteRegion b).base + k.toNat →
        ramByte Config.device t a = ramByte Config.device s a) ∧
      t = { s with mem := t.mem }

/-- R141, R142: the sprite reads, and what they return before any write since power-up. -/
def Obligations.SpriteReadsReturnTheByte : Prop :=
  (∀ (k : BitVec 5) (s : State),
    RamReadEffect (.rdSprPri k) .sprPri k.toNat s ∧ RamReadEffect (.rdSprSec k) .sprSec k.toNat s) ∧
  (∀ (b : Bank) (k : BitVec 5), memRead Config.device State.reset (spriteRegion b) k.toNat =
    Config.device.powerUpByte ((spriteRegion b).base + k.toNat))

/-- R130 to R136: the decode of a slot's four bytes, with the ranges of every field. -/
def Obligations.SpriteDecodeOfASlot : Prop :=
  ∀ (b : Bank) (flip : Bool) (b0 b1 b2 b3 : Byte),
    let d := spriteOf b flip b0 b1 b2 b3
    let x : Int := if 248 ≤ b3.toNat then (b3.toNat : Int) - 256 else b3.toNat
    let y : Int := 240 - b0.toNat
    (-8 ≤ x ∧ x ≤ 247 ∧ -15 ≤ y ∧ y ≤ 240) ∧
    (d.x = if flip then 239 - x else x) ∧ (d.y = if flip then 239 - y else y) ∧
    (-8 ≤ d.x ∧ d.x ≤ 247) ∧ (flip = true → -1 ≤ d.y ∧ d.y ≤ 254) ∧
    d.code.toNat = b1.toNat / 4 + b2.toNat / 32 % 8 * 0x40 + (match b with | .pri => 0 | .sec => 0x200) ∧
    b1.toNat / 4 + b2.toNat / 32 % 8 * 0x40 = b1.toNat / 4 ||| b2.toNat / 32 % 8 * 0x40 ∧
    (match b with | .pri => d.code.toNat ≤ 0x1FF | .sec => 0x200 ≤ d.code.toNat ∧ d.code.toNat ≤ 0x3FF) ∧
    d.color.toNat = b2.toNat % 16 ∧
    (d.flipx = if flip then decide (b1.toNat % 2 = 0) else decide (b1.toNat % 2 = 1)) ∧
    d.flipy = flip

/-- R137: byte1 bit 1 and byte2 bit 4 of a sprite record are stored and read back, and have no effect on any
pixel. -/
def Obligations.UnusedSpriteBitsHaveNoEffect : Prop :=
  (∀ (k : BitVec 5) (d : Byte) (s t : State),
    (exec (.wrSprPri k d) s = .next t →
      exec (.rdSprPri k) t = .next { t with response := .byte d }) ∧
    (exec (.wrSprSec k d) s = .next t →
      exec (.rdSprSec k) t = .next { t with response := .byte d })) ∧
  (∀ (s : State) (m : List Host.Cell),
    (∀ a, a < 0x1000 → ramByte Config.device { s with mem := m } a = ramByte Config.device s a) →
    (∀ a, 0x1000 ≤ a → a < 0x1040 → ∀ bit, ¬ (a % 4 = 1 ∧ bit = 1) → ¬ (a % 4 = 2 ∧ bit = 4) →
      (ramByte Config.device { s with mem := m } a).getLsbD bit =
        (ramByte Config.device s a).getLsbD bit) →
    ∃ t t', exec .renderFrame s = .next t ∧ exec .renderFrame { s with mem := m } = .next t' ∧ t'.fb = t.fb)

/-- R138: the blit of a sprite cell, for every configuration, clip, decoded sprite and framebuffer. A framebuffer
pixel inside the clip on which an opaque pixel of the cell lands takes that pixel's pen; a pixel on which none lands,
or outside the clip, keeps its value. -/
def Obligations.BlitOfEveryPixel : Prop :=
  ∀ (cfg : Config) (c : Clip) (d : Sprite) (f : Frame) (x y : Fin 256),
    let pix := fun u v => (cfg.spriteGfx d.code u v).toNat
    let lands := fun u v : Nat => u < cfg.spriteW ∧ v < cfg.spriteH ∧
      d.x + (if d.flipx then (cfg.spriteW : Int) - 1 - u else u) = x.val ∧
      d.y + (if d.flipy then (cfg.spriteH : Int) - 1 - v else v) = y.val
    (∀ u v, lands u v → pix u v ≠ 0 → InsidePixel c x y →
      (blit cfg c d f).get x y = cfg.spriteColorBase + d.color.toNat * 2 ^ cfg.spriteBpp + pix u v) ∧
    ((∀ u v, lands u v → pix u v = 0) ∨ ¬ InsidePixel c x y → (blit cfg c d f).get x y = f.get x y)

/-- R139: a bank draw blits all 8 slots, the highest index first, each decoded from its four bytes of the RAM and the
FLIP of the state. -/
def Obligations.BankDrawBlitsEverySlot : Prop :=
  ∀ (cfg : Config) (s : State) (b : Bank),
    let base := match b with | .pri => 0x1000 | .sec => 0x1020
    let slot := fun k => spriteOf b s.flip (ramByte cfg s (base + 4 * k)) (ramByte cfg s (base + (4 * k + 1)))
      (ramByte cfg s (base + (4 * k + 2))) (ramByte cfg s (base + (4 * k + 3)))
    let draw := fun k f => blit cfg s.clip (slot k) f
    (drawBank cfg s b).fb = draw 0 (draw 1 (draw 2 (draw 3 (draw 4 (draw 5 (draw 6 (draw 7 s.fb)))))))

/-! ### Priority/mode latch -/

/-- R147: WR_CTRL stores the byte and every field follows from it; nothing else changes. -/
def Obligations.WriteCtrlSetsTheLatch : Prop :=
  ∀ (d : Byte) (s : State), (encode (.wrCtrl d)).toNat = 0x104100 + d.toNat ∧
    ∃ t, exec (.wrCtrl d) s = .next t ∧ t = { s with latch := d } ∧
      t.nmiEn = decide (d.toNat % 2 = 1) ∧ t.flip = decide (d.toNat / 2 % 2 = 1) ∧
      t.prio.toNat = d.toNat / 16 % 4 ∧ t.romBank = decide (d.toNat / 64 % 2 = 1) ∧
      t.outNmiEn = t.nmiEn ∧ t.outFlip = t.flip ∧ t.outRomBank = t.romBank

/-- R149: latch bits 2, 3 and 7 are stored and affect nothing: no output, and of no transaction the result,
but for the latch byte itself. -/
def Obligations.UnusedLatchBitsAffectNothing : Prop :=
  ∀ (s : State) (d : Byte), (∀ b, b = 0 ∨ b = 1 ∨ b = 4 ∨ b = 5 ∨ b = 6 → d.getLsbD b = s.latch.getLsbD b) →
    State.outNmiEn { s with latch := d } = s.outNmiEn ∧ State.outFlip { s with latch := d } = s.outFlip ∧
    State.outRomBank { s with latch := d } = s.outRomBank ∧
    ∀ i : Instr, ∃ t, exec i s = .next t ∧
      exec i { s with latch := d } =
        .next { t with latch := match i with | .wrCtrl _ => t.latch | .reset => t.latch | _ => d }

/-! ### Palette decoder -/

/-- R87, R92, R93: the colour decode is exact, and each component takes its listed values. -/
def Obligations.ColourDecodeIsExact : Prop :=
  ∀ b : Byte,
    (rgb b).r.toNat = 0x21 * (b.getLsbD 0).toNat + 0x47 * (b.getLsbD 1).toNat + 0x97 * (b.getLsbD 2).toNat ∧
    (rgb b).g.toNat = 0x21 * (b.getLsbD 3).toNat + 0x47 * (b.getLsbD 4).toNat + 0x97 * (b.getLsbD 5).toNat ∧
    (rgb b).b.toNat = 0x47 * (b.getLsbD 6).toNat + 0x97 * (b.getLsbD 7).toNat ∧
    [0x00#8, 0x21#8, 0x47#8, 0x68#8, 0x97#8, 0xB8#8, 0xDE#8, 0xFF#8][b.toNat % 8]? = some (rgb b).r ∧
    [0x00#8, 0x21#8, 0x47#8, 0x68#8, 0x97#8, 0xB8#8, 0xDE#8, 0xFF#8][b.toNat / 8 % 8]? = some (rgb b).g ∧
    [0x00#8, 0x47#8, 0x97#8, 0xDE#8][b.toNat / 64]? = some (rgb b).b

/-- R88, R94: the pen index of each variant and its range; every PROM offset the build reads exists (R59). -/
def Obligations.PenIndexOfEachVariant : Prop :=
  ∀ (cfg : Config) (i : Nat), i < cfg.paletteEntries →
    (cfg.variant = .a →
      penIndex cfg i = (promByte cfg (0x20 + i)).toNat % 16 + (if i < 0x100 then 0 else 16) ∧
      (i < 0x100 → penIndex cfg i ≤ 0x0F) ∧
      (0x100 ≤ i → 0x10 ≤ penIndex cfg i ∧ penIndex cfg i ≤ 0x1F)) ∧
    (cfg.variant = .b → penIndex cfg i = (promByte cfg (0x20 + i)).toNat % 16 ∧ penIndex cfg i ≤ 0x0F) ∧
    cfg.prom[0x20 + i]? = some (promByte cfg (0x20 + i)) ∧
    cfg.prom[penIndex cfg i]? = some (promByte cfg (penIndex cfg i))

/-- R89: PALETTE_BUILD writes every entry and nothing else; a second build writes the same; the same build runs
at power-up and at RESET; with N at most 0x100 the two variants give the same palette. -/
def Obligations.PaletteBuildWritesThePalette : Prop :=
  (encode .paletteBuild = 0x800001#24) ∧
  (∀ s : State, ∃ t, exec .paletteBuild s = .next t ∧
    t.palette.length = Config.device.paletteEntries ∧
    (∀ i, i < Config.device.paletteEntries →
      t.palette[i]? = some (rgb (promByte Config.device (penIndex Config.device i)))) ∧
    t = { s with palette := t.palette } ∧ exec .paletteBuild t = .next t) ∧
  State.reset.palette = buildPalette Config.device ∧
  (∀ s : State, ∃ t, exec .reset s = .next t ∧ t.palette = buildPalette Config.device) ∧
  (∀ cfg cfg' : Config, cfg.prom = cfg'.prom → cfg.paletteEntries = cfg'.paletteEntries →
    cfg.paletteEntries ≤ 0x100 → buildPalette cfg = buildPalette cfg')

/-- R95: inside the clip a render writes only pens below N, so the displayed colour is the palette's. -/
def Obligations.DisplayedColourIsThePalettes : Prop :=
  ∀ s : State, Coherent Config.device s .fg → Coherent Config.device s .bg →
    s.palette = buildPalette Config.device →
    ∃ t, exec .renderFrame s = .next t ∧ ∀ sx sy, InsidePixel s.clip sx sy →
      t.fb.get sx sy < Config.device.paletteEntries ∧
      t.palette[t.fb.get sx sy]? = some (displayedColour Config.device t sx sy)

/-! ### Frame compositor -/

/-- R158: a render is six transitions of the phase table, from IDLE through the phases of its priority code
back to IDLE. -/
def Obligations.RenderFollowsThePhaseTable : Prop :=
  ∀ s : State, s.phase = .idle →
    exec .renderFrame s = .next ((compositorStep Config.device s.prio)^[6] s) ∧
    (List.range 7).map (fun n => ((compositorStep Config.device s.prio)^[n] s).phase) =
      if s.prio = 0#2 then [.idle, .bg, .fgEarly, .sprFirst, .sprSecond, .done, .idle]
      else [.idle, .bg, .sprFirst, .sprSecond, .fgLate, .done, .idle]

/-- R164: the four draws of a render and their order, for each priority code. -/
def Obligations.DrawOrderOfEachPriorityCode : Prop :=
  ∀ s : State, ∃ t, exec .renderFrame s = .next t ∧
    t.fb = ((drawOrder s.prio).foldl (performDraw Config.device) s).fb

/-- R157: what a render leaves unchanged and what it returns: of the state only the caches' bookkeeping may
change, PHASE is IDLE, the status is SUCCESS, and every pixel outside the clip keeps its value. -/
def Obligations.RenderFrameLeavesTheRest : Prop :=
  encode .renderFrame = 0x800000#24 ∧
  ∀ s : State, ∃ t, exec .renderFrame s = .next t ∧
    t = { s with fg := t.fg, bg := t.bg, fb := t.fb, phase := .idle, response := .status .success } ∧
    ∀ sx sy, ¬ InsidePixel s.clip sx sy → t.fb.get sx sy = s.fb.get sx sy

/-- R165: the visible pixel inside the clip is the first source of the priority code's list that applies,
as the RAM gives them; within a bank the lowest opaque slot. -/
def Obligations.VisiblePixelOfARender : Prop :=
  ∀ s : State, Coherent Config.device s .fg → Coherent Config.device s .bg →
    ∃ t, exec .renderFrame s = .next t ∧
      ∀ sx sy, t.fb.get sx sy =
        if InsidePixel s.clip sx sy then visiblePen Config.device s sx sy else s.fb.get sx sy

/-- R169: the picture is determined by the RAM, SCROLL, FLIP, PRIO, the clip and the pixels outside it: two
coherent states that agree on these render the same framebuffer, whatever their caches, counters, palette and
other fields hold. Nothing but the framebuffer, the caches' bookkeeping, PHASE and the response changes. -/
def Obligations.PictureIsAFunctionOfVisibleState : Prop :=
  ∀ s s' : State, (∀ L, Coherent Config.device s L) → (∀ L, Coherent Config.device s' L) →
    (∀ a, ramByte Config.device s a = ramByte Config.device s' a) → s.scroll = s'.scroll →
    s.flip = s'.flip → s.prio = s'.prio → s.clip = s'.clip →
    (∀ sx sy, ¬ InsidePixel s.clip sx sy → s.fb.get sx sy = s'.fb.get sx sy) →
    ∃ t t', exec .renderFrame s = .next t ∧ exec .renderFrame s' = .next t' ∧ t.fb = t'.fb ∧
      t = { s with fg := t.fg, bg := t.bg, fb := t.fb, phase := .idle, response := .status .success }

/-- R163: priority codes 2 and 3 behave identically. -/
def Obligations.PriorityCodesTwoAndThreeAreAlike : Prop :=
  ∀ (s : State) (d : Byte), s.prio = 2#2 → d.extractLsb' 4 2 = 3#2 →
    d.getLsbD 1 = s.latch.getLsbD 1 →
    ∃ t, exec .renderFrame s = .next t ∧
      exec .renderFrame { s with latch := d } = .next { t with latch := d }

/-- R157: a render with nothing changed since the previous one, on the framebuffer that one left and with the
same clip, writes the same pixels and re-derives no cell: the state is the same again. -/
def Obligations.RenderAgainChangesNothing : Prop :=
  ∀ s : State, ∃ t, exec .renderFrame s = .next t ∧ exec .renderFrame t = .next t

/-! ### Reset -/

/-- R187, R190: RESET sets LATCH and SCROLL to 0 and PHASE to IDLE, rebuilds the palette, and leaves the RAM,
the caches, the dirty bits and the counters; a second RESET changes nothing. -/
def Obligations.ResetRestoresTheControlState : Prop :=
  encode .reset = 0x800002#24 ∧
  ∀ s : State, ∃ t, exec .reset s = .next t ∧
    t = { s with latch := 0x00#8, scroll := 0x00#8, phase := .idle, palette := buildPalette Config.device } ∧
    t.nmiEn = false ∧ t.flip = false ∧ t.prio = 0#2 ∧ t.romBank = false ∧
    exec .reset t = .next t

/-! ### The whole machine -/

/-- R172: no transaction has an exception case: each completes from every state. -/
def Obligations.EveryTransactionCompletes : Prop :=
  ∀ (i : Instr) (s : State), ∃ t, exec i s = .next t

/-- R40: who writes what. Each piece of the core's state changes only by the transactions of its row. -/
def Obligations.WhoWritesWhichState : Prop :=
  ∀ (i : Instr) (s t : State), exec i s = .next t →
    (t.scroll ≠ s.scroll → (∃ d, i = .wrScroll d) ∨ i = .reset) ∧
    (t.latch ≠ s.latch → (∃ d, i = .wrCtrl d) ∨ i = .reset) ∧
    (t.palette ≠ s.palette → i = .paletteBuild ∨ i = .reset) ∧
    (t.phase ≠ s.phase → i = .renderFrame ∨ i = .reset) ∧
    (∀ L, (t.layer L).dirty ≠ (s.layer L).dirty → (writtenCell L i).isSome ∨ i = .renderFrame) ∧
    (∀ L, (t.layer L).cache ≠ (s.layer L).cache ∨ (t.layer L).rederive ≠ (s.layer L).rederive →
      i = .renderFrame) ∧
    (∀ L p, ∀ c : BitVec 10,
      memRead Config.device t (tileRegion L p) c.toNat ≠ memRead Config.device s (tileRegion L p) c.toNat →
      writtenCell L i = some c.toNat) ∧
    (∀ b, ∀ k : BitVec 5,
      memRead Config.device t (spriteRegion b) k.toNat ≠ memRead Config.device s (spriteRegion b) k.toNat →
      ∃ d, i = match b with | .pri => .wrSprPri k d | .sec => .wrSprSec k d)

/-- R53: sequential consistency over the one port. After any history of transactions, a READ of a RAM byte
returns the data of the last WRITE to that byte in the history; if there is none, the byte of the state it
started from, which at power-up is that byte's draw. -/
def Obligations.ReadReturnsTheLastWrite : Prop :=
  (∀ (s : State) (history : List Request) (r : Request) (rest : List Request) (a : PortAddr),
    s.port = history ++ r :: rest → (∀ q ∈ history, ¬ ReservedWord q.word) → IsReadOf r.word a →
    a.toNat < 0x1040 →
    ∃ t, Host.Core.run Sys2Proof.core (history.length + 1) s = .next t ∧
      t.response = .byte (lastWrite a history (ramByte Config.device s a.toNat)) ∧ t.port = rest) ∧
  (∀ (p : List Request) (a : PortAddr),
    ramByte Config.device { State.reset with port := p } a.toNat = Config.device.powerUpByte a.toNat)

/-- R192: two WRITEs to different addresses may be performed in either order. -/
def Obligations.WritesToDifferentAddressesCommute : Prop :=
  ∀ (s : State) (w w' : Word) (a a' : PortAddr), Memory.wf Config.device.powerUpByte s.mem →
    IsWriteTo w a → IsWriteTo w' a' → a ≠ a' →
    ∃ t t' u, perform (decode w) s = .next t ∧ perform (decode w') t = .next u ∧
      perform (decode w') s = .next t' ∧ perform (decode w) t' = .next u

/-- R51: a WRITE of the same value twice leaves the same state as writing it once. -/
def Obligations.RepeatedWriteIsIdempotent : Prop :=
  ∀ (s : State) (w : Word) (a : PortAddr), IsWriteTo w a →
    ∃ t, perform (decode w) s = .next t ∧ perform (decode w) t = .next t

/-- The invariant of the core: canonical memory, coherent caches (R38), the palette built (R29), PHASE idle
(R33). Power-up satisfies it. -/
def Obligations.InvariantAtPowerUp : Prop := Inv Config.device State.reset

/-- Every step from every state that meets the invariant keeps it (R38, R112, R33, R90). -/
def Obligations.InvariantKeptByEveryStep : Prop :=
  ∀ s t : State, Inv Config.device s → step s = .next t → Inv Config.device t

/-- Every step keeps the pens of the framebuffers below N (R13, R16). -/
def Obligations.PensBelowKeptByEveryStep : Prop :=
  ∀ s t : State, FramesBelow Config.device s → step s = .next t → FramesBelow Config.device t
end

