-- ==== Sys2Proof/Laws/Encoding.lean ====
section
/-! SUPPORT. The words of the encoder and the fields of the decoder as numbers. -/

namespace Sys2Proof

theorem toNat_append_eq {n m : Nat} (x : BitVec n) (y : BitVec m) :
    (x ++ y).toNat = x.toNat * 2 ^ m + y.toNat := by
  rw [BitVec.toNat_append, ← Nat.shiftLeft_add_eq_or_of_lt y.isLt, Nat.shiftLeft_eq]

/-- A WRITE word is a·0x100 + d (R65, R79). -/
theorem encodeWrite_toNat (a : PortAddr) (d : Byte) : (encodeWrite a d).toNat = a.toNat * 0x100 + d.toNat := by
  have h : (encodeWrite a d).toNat = ((0b00#2 ++ 0b0#1 ++ a) ++ d).toNat := rfl
  rw [h, toNat_append_eq, toNat_append_eq]; simp

/-- A READ word is 0x400000 + a·0x100 (R66, R79). -/
theorem encodeRead_toNat (a : PortAddr) : (encodeRead a).toNat = 0x400000 + a.toNat * 0x100 := by
  have h : (encodeRead a).toNat = ((0b01#2 ++ 0b0#1 ++ a) ++ 0x00#8).toNat := rfl
  rw [h, toNat_append_eq, toNat_append_eq, toNat_append_eq]; simp; omega

/-- A STROBE word is 0x800000 + S (R67, R71). -/
theorem encodeStrobe_toNat (s : BitVec 2) : (encodeStrobe s).toNat = 0x800000 + s.toNat := by
  revert s; decide

theorem cls_toNat (w : Word) : (Word.cls w).toNat = w.toNat / 4194304 := by
  have := w.isLt
  simp only [Word.cls, BitVec.extractLsb'_toNat, Nat.shiftRight_eq_div_pow]; omega

theorem addr_toNat (w : Word) : (Word.addr w).toNat = w.toNat / 256 % 8192 := by
  simp only [Word.addr, BitVec.extractLsb'_toNat, Nat.shiftRight_eq_div_pow]

theorem data_toNat (w : Word) : (Word.data w).toNat = w.toNat % 256 := by
  simp [Word.data, BitVec.extractLsb'_toNat]

theorem bit21_iff (w : Word) : w.getLsbD 21 = true ↔ w.toNat / 2097152 % 2 = 1 := by
  rw [BitVec.getLsbD, Nat.testBit_eq_decide_div_mod_eq, decide_eq_true_iff]

theorem cell_toNat (a : PortAddr) : (PortAddr.cell a).toNat = a.toNat % 1024 := by
  simp [PortAddr.cell, BitVec.extractLsb'_toNat]

theorem spriteByte_toNat (a : PortAddr) : (PortAddr.spriteByte a).toNat = a.toNat % 32 := by
  simp [PortAddr.spriteByte, BitVec.extractLsb'_toNat]

/-- A[12:10] as a number (R69). -/
theorem high3_toNat (a : PortAddr) : (a.extractLsb' 10 3).toNat = a.toNat / 1024 := by
  have := a.isLt
  simp only [BitVec.extractLsb'_toNat, Nat.shiftRight_eq_div_pow]; omega

/-- A[12:5] as a number (R69). -/
theorem high8_toNat (a : PortAddr) : (a.extractLsb' 5 8).toNat = a.toNat / 32 := by
  have := a.isLt
  simp only [BitVec.extractLsb'_toNat, Nat.shiftRight_eq_div_pow]; omega

/-- w[21:2] as a number (R67). -/
theorem strobeBits_toNat (w : Word) : (w.extractLsb' 2 20).toNat = w.toNat / 4 % 1048576 := by
  simp only [BitVec.extractLsb'_toNat, Nat.shiftRight_eq_div_pow]

/-- The strobe code w[1:0] as a number (R67). -/
theorem strobeCode_toNat (w : Word) : (w.extractLsb' 0 2).toNat = w.toNat % 4 := by
  simp [BitVec.extractLsb'_toNat]

/-- A region's tag in front of a cell index, as a port address (R46). -/
theorem cellAddr_toNat (r : BitVec 3) (c : BitVec 10) :
    ((r ++ c : PortAddr)).toNat = r.toNat * 0x400 + c.toNat := toNat_append_eq r c

/-- A bank's tag in front of a sprite byte index, as a port address (R46). -/
theorem spriteAddr_toNat (r : BitVec 8) (k : BitVec 5) :
    ((r ++ k : PortAddr)).toNat = r.toNat * 0x20 + k.toNat := toNat_append_eq r k

/-- Clearing the low `n` bits of a 24-bit number. -/
theorem and_highMask (x n : Nat) (hx : x < 2 ^ 24) (hn : n ≤ 24) :
    x &&& ((2 ^ (24 - n) - 1) * 2 ^ n) = x / 2 ^ n * 2 ^ n := by
  refine Nat.eq_of_testBit_eq fun i => ?_
  rw [Nat.testBit_and, Nat.testBit_mul_two_pow, Nat.testBit_mul_two_pow, Nat.testBit_div_two_pow,
    Nat.testBit_two_pow_sub_one]
  by_cases h : n ≤ i
  · by_cases h' : i - n < 24 - n
    · simp [h, h']
    · have h24 : 24 ≤ i := by omega
      have : x.testBit i = false :=
        Nat.testBit_lt_two_pow (hx.trans_le (Nat.pow_le_pow_right (by decide) h24))
      simp [h, this]
  · simp [h]

/-- A word matches a row of the table exactly when its high bits are the row's: `n` is how many low bits
the row's mask leaves out. -/
theorem and_mask_eq_iff (w : Word) (n v : Nat) (mask pattern : Word) (hn : n ≤ 24)
    (hm : mask.toNat = (2 ^ (24 - n) - 1) * 2 ^ n) (hp : pattern.toNat = v * 2 ^ n) :
    w &&& mask = pattern ↔ w.toNat / 2 ^ n = v := by
  rw [← BitVec.toNat_inj, BitVec.toNat_and, hm, hp, and_highMask _ _ w.isLt hn]
  exact ⟨fun h => Nat.eq_of_mul_eq_mul_right (Nat.two_pow_pos n) h, fun h => by rw [h]⟩

/-! ### The decode tables by number -/

theorem high3_iff (a : PortAddr) (k : Nat) (hk : k < 8) :
    a.extractLsb' 10 3 = BitVec.ofNat 3 k ↔ a.toNat / 1024 = k := by
  rw [← BitVec.toNat_inj, high3_toNat, BitVec.toNat_ofNat]; omega

theorem high8_iff (a : PortAddr) (k : Nat) (hk : k < 256) :
    a.extractLsb' 5 8 = BitVec.ofNat 8 k ↔ a.toNat / 32 = k := by
  rw [← BitVec.toNat_inj, high8_toNat, BitVec.toNat_ofNat]; omega

theorem addr_iff (a : PortAddr) (k : Nat) (hk : k < 8192) : a = BitVec.ofNat 13 k ↔ a.toNat = k := by
  rw [← BitVec.toNat_inj, BitVec.toNat_ofNat]; omega

theorem cls_iff (w : Word) (k : Nat) (hk : k < 4) : Word.cls w = BitVec.ofNat 2 k ↔ w.toNat / 4194304 = k := by
  rw [← BitVec.toNat_inj, cls_toNat, BitVec.toNat_ofNat]; omega

theorem strobeCode_iff (w : Word) (k : Nat) (hk : k < 4) :
    w.extractLsb' 0 2 = BitVec.ofNat 2 k ↔ w.toNat % 4 = k := by
  rw [← BitVec.toNat_inj, strobeCode_toNat, BitVec.toNat_ofNat]; omega

theorem strobeBits_iff (w : Word) : w.extractLsb' 2 20 = 0#20 ↔ w.toNat / 4 % 1048576 = 0 := by
  rw [← BitVec.toNat_inj, strobeBits_toNat]; simp

/-- The WRITE table in the ranges of R69. -/
theorem decodeWrite_nat (a : PortAddr) (d : Byte) : decodeWrite a d =
    if a.toNat < 0x400 then .row (.wrFgGfx (PortAddr.cell a) d)
    else if a.toNat < 0x800 then .row (.wrFgAttr (PortAddr.cell a) d)
    else if a.toNat < 0xC00 then .row (.wrBgGfx (PortAddr.cell a) d)
    else if a.toNat < 0x1000 then .row (.wrBgAttr (PortAddr.cell a) d)
    else if a.toNat < 0x1020 then .row (.wrSprPri (PortAddr.spriteByte a) d)
    else if a.toNat < 0x1040 then .row (.wrSprSec (PortAddr.spriteByte a) d)
    else if a.toNat = 0x1040 then .row (.wrScroll d)
    else if a.toNat = 0x1041 then .row (.wrCtrl d)
    else .unmappedWrite a d := by
  unfold decodeWrite
  by_cases q1 : a.toNat < 0x400
  · rw [if_pos ((high3_iff a 0 (by decide)).2 (by omega)), if_pos q1]
  rw [if_neg (fun h => q1 (by have := (high3_iff a 0 (by decide)).1 h; omega)), if_neg q1]
  by_cases q2 : a.toNat < 0x800
  · rw [if_pos ((high3_iff a 1 (by decide)).2 (by omega)), if_pos q2]
  rw [if_neg (fun h => q2 (by have := (high3_iff a 1 (by decide)).1 h; omega)), if_neg q2]
  by_cases q3 : a.toNat < 0xC00
  · rw [if_pos ((high3_iff a 2 (by decide)).2 (by omega)), if_pos q3]
  rw [if_neg (fun h => q3 (by have := (high3_iff a 2 (by decide)).1 h; omega)), if_neg q3]
  by_cases q4 : a.toNat < 0x1000
  · rw [if_pos ((high3_iff a 3 (by decide)).2 (by omega)), if_pos q4]
  rw [if_neg (fun h => q4 (by have := (high3_iff a 3 (by decide)).1 h; omega)), if_neg q4]
  by_cases q5 : a.toNat < 0x1020
  · rw [if_pos ((high8_iff a 128 (by decide)).2 (by omega)), if_pos q5]
  rw [if_neg (fun h => q5 (by have := (high8_iff a 128 (by decide)).1 h; omega)), if_neg q5]
  by_cases q6 : a.toNat < 0x1040
  · rw [if_pos ((high8_iff a 129 (by decide)).2 (by omega)), if_pos q6]
  rw [if_neg (fun h => q6 (by have := (high8_iff a 129 (by decide)).1 h; omega)), if_neg q6]
  by_cases q7 : a.toNat = 0x1040
  · rw [if_pos ((addr_iff a 0x1040 (by decide)).2 (by omega)), if_pos q7]
  rw [if_neg (fun h => q7 (by have := (addr_iff a 0x1040 (by decide)).1 h; omega)), if_neg q7]
  by_cases q8 : a.toNat = 0x1041
  · rw [if_pos ((addr_iff a 0x1041 (by decide)).2 (by omega)), if_pos q8]
  rw [if_neg (fun h => q8 (by have := (addr_iff a 0x1041 (by decide)).1 h; omega)), if_neg q8]

/-- The READ table in the ranges of R70. -/
theorem decodeRead_nat (a : PortAddr) : decodeRead a =
    if a.toNat < 0x400 then .row (.rdFgGfx (PortAddr.cell a))
    else if a.toNat < 0x800 then .row (.rdFgAttr (PortAddr.cell a))
    else if a.toNat < 0xC00 then .row (.rdBgGfx (PortAddr.cell a))
    else if a.toNat < 0x1000 then .row (.rdBgAttr (PortAddr.cell a))
    else if a.toNat < 0x1020 then .row (.rdSprPri (PortAddr.spriteByte a))
    else if a.toNat < 0x1040 then .row (.rdSprSec (PortAddr.spriteByte a))
    else .noEffectRead a := by
  unfold decodeRead
  by_cases q1 : a.toNat < 0x400
  · rw [if_pos ((high3_iff a 0 (by decide)).2 (by omega)), if_pos q1]
  rw [if_neg (fun h => q1 (by have := (high3_iff a 0 (by decide)).1 h; omega)), if_neg q1]
  by_cases q2 : a.toNat < 0x800
  · rw [if_pos ((high3_iff a 1 (by decide)).2 (by omega)), if_pos q2]
  rw [if_neg (fun h => q2 (by have := (high3_iff a 1 (by decide)).1 h; omega)), if_neg q2]
  by_cases q3 : a.toNat < 0xC00
  · rw [if_pos ((high3_iff a 2 (by decide)).2 (by omega)), if_pos q3]
  rw [if_neg (fun h => q3 (by have := (high3_iff a 2 (by decide)).1 h; omega)), if_neg q3]
  by_cases q4 : a.toNat < 0x1000
  · rw [if_pos ((high3_iff a 3 (by decide)).2 (by omega)), if_pos q4]
  rw [if_neg (fun h => q4 (by have := (high3_iff a 3 (by decide)).1 h; omega)), if_neg q4]
  by_cases q5 : a.toNat < 0x1020
  · rw [if_pos ((high8_iff a 128 (by decide)).2 (by omega)), if_pos q5]
  rw [if_neg (fun h => q5 (by have := (high8_iff a 128 (by decide)).1 h; omega)), if_neg q5]
  by_cases q6 : a.toNat < 0x1040
  · rw [if_pos ((high8_iff a 129 (by decide)).2 (by omega)), if_pos q6]
  rw [if_neg (fun h => q6 (by have := (high8_iff a 129 (by decide)).1 h; omega)), if_neg q6]

/-- The STROBE table by the number of the word (R71). -/
theorem decodeStrobe_nat (w : Word) (h : w.toNat / 4194304 = 2) : decodeStrobe w =
    if w.toNat = 0x800000 then .row .renderFrame
    else if w.toNat = 0x800001 then .row .paletteBuild
    else if w.toNat = 0x800002 then .row .reset
    else if w.toNat = 0x800003 then .refused .strobeCode
    else .refused .strobeBits := by
  unfold decodeStrobe
  by_cases q : w.toNat / 4 % 1048576 = 0
  · rw [if_neg (not_not.2 ((strobeBits_iff w).2 q))]
    by_cases q0 : w.toNat = 0x800000
    · rw [if_pos ((strobeCode_iff w 0 (by decide)).2 (by omega)), if_pos q0]
    rw [if_neg (fun e => q0 (by have := (strobeCode_iff w 0 (by decide)).1 e; omega)), if_neg q0]
    by_cases q1 : w.toNat = 0x800001
    · rw [if_pos ((strobeCode_iff w 1 (by decide)).2 (by omega)), if_pos q1]
    rw [if_neg (fun e => q1 (by have := (strobeCode_iff w 1 (by decide)).1 e; omega)), if_neg q1]
    by_cases q2 : w.toNat = 0x800002
    · rw [if_pos ((strobeCode_iff w 2 (by decide)).2 (by omega)), if_pos q2]
    rw [if_neg (fun e => q2 (by have := (strobeCode_iff w 2 (by decide)).1 e; omega)), if_neg q2,
      if_pos (by omega)]
  · rw [if_pos (mt (strobeBits_iff w).1 q), if_neg (by omega), if_neg (by omega), if_neg (by omega),
      if_neg (by omega)]

/-- The whole decoder by the number of the word: class, bit 21, then the class's table (R77). -/
theorem decode_nat (w : Word) : decode w =
    if w.toNat / 4194304 = 3 then .refused .classEleven
    else if w.toNat / 2097152 % 2 = 1 then .refused .bit21
    else if w.toNat / 4194304 = 0 then decodeWrite (Word.addr w) (Word.data w)
    else if w.toNat / 4194304 = 1 then decodeRead (Word.addr w)
    else decodeStrobe w := by
  unfold decode
  by_cases q3 : w.toNat / 4194304 = 3
  · rw [if_pos ((cls_iff w 3 (by decide)).2 (by omega)), if_pos q3]
  rw [if_neg (fun h => q3 (by have := (cls_iff w 3 (by decide)).1 h; omega)), if_neg q3]
  by_cases qb : w.toNat / 2097152 % 2 = 1
  · rw [if_pos ((bit21_iff w).2 (by omega)), if_pos qb]
  rw [if_neg (fun h => qb (by have := (bit21_iff w).1 h; omega)), if_neg qb]
  by_cases q0 : w.toNat / 4194304 = 0
  · rw [if_pos ((cls_iff w 0 (by decide)).2 (by omega)), if_pos q0]
  rw [if_neg (fun h => q0 (by have := (cls_iff w 0 (by decide)).1 h; omega)), if_neg q0]
  by_cases q1 : w.toNat / 4194304 = 1
  · rw [if_pos ((cls_iff w 1 (by decide)).2 (by omega)), if_pos q1]
  rw [if_neg (fun h => q1 (by have := (cls_iff w 1 (by decide)).1 h; omega)), if_neg q1]

end Sys2Proof
end

