-- ==== Sys2Proof/Laws/State.lean ====
section
/-! SUPPORT. The small lemmas of State: for each operation that updates it, one lemma per field. Each is true by
rfl; the `id` keeps simp from using it as a definitional step, which would make the kernel compare whole frames. -/

namespace Sys2Proof.Machine

/-! ### `State.setLatch` -/

@[simp] theorem State.setLatch_mem (s : State) (d : Byte) :
    (s.setLatch d).mem = s.mem := id rfl
@[simp] theorem State.setLatch_scroll (s : State) (d : Byte) :
    (s.setLatch d).scroll = s.scroll := id rfl
@[simp] theorem State.setLatch_latch (s : State) (d : Byte) :
    (s.setLatch d).latch = d := id rfl
@[simp] theorem State.setLatch_palette (s : State) (d : Byte) :
    (s.setLatch d).palette = s.palette := id rfl
@[simp] theorem State.setLatch_fg (s : State) (d : Byte) :
    (s.setLatch d).fg = s.fg := id rfl
@[simp] theorem State.setLatch_bg (s : State) (d : Byte) :
    (s.setLatch d).bg = s.bg := id rfl
@[simp] theorem State.setLatch_phase (s : State) (d : Byte) :
    (s.setLatch d).phase = s.phase := id rfl
@[simp] theorem State.setLatch_port (s : State) (d : Byte) :
    (s.setLatch d).port = s.port := id rfl
@[simp] theorem State.setLatch_clip (s : State) (d : Byte) :
    (s.setLatch d).clip = s.clip := id rfl
@[simp] theorem State.setLatch_fb (s : State) (d : Byte) :
    (s.setLatch d).fb = s.fb := id rfl
@[simp] theorem State.setLatch_response (s : State) (d : Byte) :
    (s.setLatch d).response = s.response := id rfl
@[simp] theorem State.setLatch_draws (s : State) (d : Byte) :
    (s.setLatch d).draws = s.draws := id rfl
@[simp] theorem State.setLatch_layer (s : State) (d : Byte) (L : LayerId) :
    (s.setLatch d).layer L = s.layer L := by cases L <;> rfl
@[simp] theorem State.setLatch_ramByte (cfg : Config) (s : State) (d : Byte) (a : Nat) :
    ramByte cfg (s.setLatch d) a = ramByte cfg s a := id rfl

/-! ### `State.setScroll` -/

@[simp] theorem State.setScroll_mem (s : State) (d : Byte) :
    (s.setScroll d).mem = s.mem := id rfl
@[simp] theorem State.setScroll_scroll (s : State) (d : Byte) :
    (s.setScroll d).scroll = d := id rfl
@[simp] theorem State.setScroll_latch (s : State) (d : Byte) :
    (s.setScroll d).latch = s.latch := id rfl
@[simp] theorem State.setScroll_palette (s : State) (d : Byte) :
    (s.setScroll d).palette = s.palette := id rfl
@[simp] theorem State.setScroll_fg (s : State) (d : Byte) :
    (s.setScroll d).fg = s.fg := id rfl
@[simp] theorem State.setScroll_bg (s : State) (d : Byte) :
    (s.setScroll d).bg = s.bg := id rfl
@[simp] theorem State.setScroll_phase (s : State) (d : Byte) :
    (s.setScroll d).phase = s.phase := id rfl
@[simp] theorem State.setScroll_port (s : State) (d : Byte) :
    (s.setScroll d).port = s.port := id rfl
@[simp] theorem State.setScroll_clip (s : State) (d : Byte) :
    (s.setScroll d).clip = s.clip := id rfl
@[simp] theorem State.setScroll_fb (s : State) (d : Byte) :
    (s.setScroll d).fb = s.fb := id rfl
@[simp] theorem State.setScroll_response (s : State) (d : Byte) :
    (s.setScroll d).response = s.response := id rfl
@[simp] theorem State.setScroll_draws (s : State) (d : Byte) :
    (s.setScroll d).draws = s.draws := id rfl
@[simp] theorem State.setScroll_layer (s : State) (d : Byte) (L : LayerId) :
    (s.setScroll d).layer L = s.layer L := by cases L <;> rfl
@[simp] theorem State.setScroll_flip (s : State) (d : Byte) : (s.setScroll d).flip = s.flip := id rfl
@[simp] theorem State.setScroll_prio (s : State) (d : Byte) : (s.setScroll d).prio = s.prio := id rfl
@[simp] theorem State.setScroll_ramByte (cfg : Config) (s : State) (d : Byte) (a : Nat) :
    ramByte cfg (s.setScroll d) a = ramByte cfg s a := id rfl

/-! ### `State.setPhase` -/

@[simp] theorem State.setPhase_mem (s : State) (p : Phase) :
    (s.setPhase p).mem = s.mem := id rfl
@[simp] theorem State.setPhase_scroll (s : State) (p : Phase) :
    (s.setPhase p).scroll = s.scroll := id rfl
@[simp] theorem State.setPhase_latch (s : State) (p : Phase) :
    (s.setPhase p).latch = s.latch := id rfl
@[simp] theorem State.setPhase_palette (s : State) (p : Phase) :
    (s.setPhase p).palette = s.palette := id rfl
@[simp] theorem State.setPhase_fg (s : State) (p : Phase) :
    (s.setPhase p).fg = s.fg := id rfl
@[simp] theorem State.setPhase_bg (s : State) (p : Phase) :
    (s.setPhase p).bg = s.bg := id rfl
@[simp] theorem State.setPhase_phase (s : State) (p : Phase) :
    (s.setPhase p).phase = p := id rfl
@[simp] theorem State.setPhase_port (s : State) (p : Phase) :
    (s.setPhase p).port = s.port := id rfl
@[simp] theorem State.setPhase_clip (s : State) (p : Phase) :
    (s.setPhase p).clip = s.clip := id rfl
@[simp] theorem State.setPhase_fb (s : State) (p : Phase) :
    (s.setPhase p).fb = s.fb := id rfl
@[simp] theorem State.setPhase_response (s : State) (p : Phase) :
    (s.setPhase p).response = s.response := id rfl
@[simp] theorem State.setPhase_draws (s : State) (p : Phase) :
    (s.setPhase p).draws = s.draws := id rfl
@[simp] theorem State.setPhase_layer (s : State) (p : Phase) (L : LayerId) :
    (s.setPhase p).layer L = s.layer L := by cases L <;> rfl
@[simp] theorem State.setPhase_flip (s : State) (p : Phase) : (s.setPhase p).flip = s.flip := id rfl
@[simp] theorem State.setPhase_prio (s : State) (p : Phase) : (s.setPhase p).prio = s.prio := id rfl
@[simp] theorem State.setPhase_ramByte (cfg : Config) (s : State) (p : Phase) (a : Nat) :
    ramByte cfg (s.setPhase p) a = ramByte cfg s a := id rfl

/-! ### `State.respond` -/

@[simp] theorem State.respond_mem (s : State) (r : Response) :
    (s.respond r).mem = s.mem := id rfl
@[simp] theorem State.respond_scroll (s : State) (r : Response) :
    (s.respond r).scroll = s.scroll := id rfl
@[simp] theorem State.respond_latch (s : State) (r : Response) :
    (s.respond r).latch = s.latch := id rfl
@[simp] theorem State.respond_palette (s : State) (r : Response) :
    (s.respond r).palette = s.palette := id rfl
@[simp] theorem State.respond_fg (s : State) (r : Response) :
    (s.respond r).fg = s.fg := id rfl
@[simp] theorem State.respond_bg (s : State) (r : Response) :
    (s.respond r).bg = s.bg := id rfl
@[simp] theorem State.respond_phase (s : State) (r : Response) :
    (s.respond r).phase = s.phase := id rfl
@[simp] theorem State.respond_port (s : State) (r : Response) :
    (s.respond r).port = s.port := id rfl
@[simp] theorem State.respond_clip (s : State) (r : Response) :
    (s.respond r).clip = s.clip := id rfl
@[simp] theorem State.respond_fb (s : State) (r : Response) :
    (s.respond r).fb = s.fb := id rfl
@[simp] theorem State.respond_response (s : State) (r : Response) :
    (s.respond r).response = r := id rfl
@[simp] theorem State.respond_draws (s : State) (r : Response) :
    (s.respond r).draws = s.draws := id rfl
@[simp] theorem State.respond_layer (s : State) (r : Response) (L : LayerId) :
    (s.respond r).layer L = s.layer L := by cases L <;> rfl
@[simp] theorem State.respond_flip (s : State) (r : Response) : (s.respond r).flip = s.flip := id rfl
@[simp] theorem State.respond_prio (s : State) (r : Response) : (s.respond r).prio = s.prio := id rfl
@[simp] theorem State.respond_ramByte (cfg : Config) (s : State) (r : Response) (a : Nat) :
    ramByte cfg (s.respond r) a = ramByte cfg s a := id rfl

/-! ### `State.respondAny` -/

@[simp] theorem State.respondAny_mem (cfg : Config) (s : State) :
    (s.respondAny cfg).mem = s.mem := id rfl
@[simp] theorem State.respondAny_scroll (cfg : Config) (s : State) :
    (s.respondAny cfg).scroll = s.scroll := id rfl
@[simp] theorem State.respondAny_latch (cfg : Config) (s : State) :
    (s.respondAny cfg).latch = s.latch := id rfl
@[simp] theorem State.respondAny_palette (cfg : Config) (s : State) :
    (s.respondAny cfg).palette = s.palette := id rfl
@[simp] theorem State.respondAny_fg (cfg : Config) (s : State) :
    (s.respondAny cfg).fg = s.fg := id rfl
@[simp] theorem State.respondAny_bg (cfg : Config) (s : State) :
    (s.respondAny cfg).bg = s.bg := id rfl
@[simp] theorem State.respondAny_phase (cfg : Config) (s : State) :
    (s.respondAny cfg).phase = s.phase := id rfl
@[simp] theorem State.respondAny_port (cfg : Config) (s : State) :
    (s.respondAny cfg).port = s.port := id rfl
@[simp] theorem State.respondAny_clip (cfg : Config) (s : State) :
    (s.respondAny cfg).clip = s.clip := id rfl
@[simp] theorem State.respondAny_fb (cfg : Config) (s : State) :
    (s.respondAny cfg).fb = s.fb := id rfl
@[simp] theorem State.respondAny_response (cfg : Config) (s : State) :
    (s.respondAny cfg).response = .byte (cfg.portByte s.draws) := id rfl
@[simp] theorem State.respondAny_draws (cfg : Config) (s : State) :
    (s.respondAny cfg).draws = s.draws + 1 := id rfl
@[simp] theorem State.respondAny_layer (cfg : Config) (s : State) (L : LayerId) :
    (s.respondAny cfg).layer L = s.layer L := by cases L <;> rfl
@[simp] theorem State.respondAny_flip (cfg : Config) (s : State) : (s.respondAny cfg).flip = s.flip := id rfl
@[simp] theorem State.respondAny_prio (cfg : Config) (s : State) : (s.respondAny cfg).prio = s.prio := id rfl
@[simp] theorem State.respondAny_ramByte (cfg : Config) (s : State) (a : Nat) :
    ramByte cfg (s.respondAny cfg) a = ramByte cfg s a := id rfl

/-! ### `State.rebuildPalette` -/

@[simp] theorem State.rebuildPalette_mem (cfg : Config) (s : State) :
    (s.rebuildPalette cfg).mem = s.mem := id rfl
@[simp] theorem State.rebuildPalette_scroll (cfg : Config) (s : State) :
    (s.rebuildPalette cfg).scroll = s.scroll := id rfl
@[simp] theorem State.rebuildPalette_latch (cfg : Config) (s : State) :
    (s.rebuildPalette cfg).latch = s.latch := id rfl
@[simp] theorem State.rebuildPalette_palette (cfg : Config) (s : State) :
    (s.rebuildPalette cfg).palette = buildPalette cfg := id rfl
@[simp] theorem State.rebuildPalette_fg (cfg : Config) (s : State) :
    (s.rebuildPalette cfg).fg = s.fg := id rfl
@[simp] theorem State.rebuildPalette_bg (cfg : Config) (s : State) :
    (s.rebuildPalette cfg).bg = s.bg := id rfl
@[simp] theorem State.rebuildPalette_phase (cfg : Config) (s : State) :
    (s.rebuildPalette cfg).phase = s.phase := id rfl
@[simp] theorem State.rebuildPalette_port (cfg : Config) (s : State) :
    (s.rebuildPalette cfg).port = s.port := id rfl
@[simp] theorem State.rebuildPalette_clip (cfg : Config) (s : State) :
    (s.rebuildPalette cfg).clip = s.clip := id rfl
@[simp] theorem State.rebuildPalette_fb (cfg : Config) (s : State) :
    (s.rebuildPalette cfg).fb = s.fb := id rfl
@[simp] theorem State.rebuildPalette_response (cfg : Config) (s : State) :
    (s.rebuildPalette cfg).response = s.response := id rfl
@[simp] theorem State.rebuildPalette_draws (cfg : Config) (s : State) :
    (s.rebuildPalette cfg).draws = s.draws := id rfl
@[simp] theorem State.rebuildPalette_layer (cfg : Config) (s : State) (L : LayerId) :
    (s.rebuildPalette cfg).layer L = s.layer L := by cases L <;> rfl
@[simp] theorem State.rebuildPalette_flip (cfg : Config) (s : State) : (s.rebuildPalette cfg).flip = s.flip := id rfl
@[simp] theorem State.rebuildPalette_prio (cfg : Config) (s : State) : (s.rebuildPalette cfg).prio = s.prio := id rfl
@[simp] theorem State.rebuildPalette_ramByte (cfg : Config) (s : State) (a : Nat) :
    ramByte cfg (s.rebuildPalette cfg) a = ramByte cfg s a := id rfl

/-! ### `State.accept` -/

@[simp] theorem State.accept_mem (s : State) (r : Request) (rest : List Request) :
    (s.accept r rest).mem = s.mem := id rfl
@[simp] theorem State.accept_scroll (s : State) (r : Request) (rest : List Request) :
    (s.accept r rest).scroll = s.scroll := id rfl
@[simp] theorem State.accept_latch (s : State) (r : Request) (rest : List Request) :
    (s.accept r rest).latch = s.latch := id rfl
@[simp] theorem State.accept_palette (s : State) (r : Request) (rest : List Request) :
    (s.accept r rest).palette = s.palette := id rfl
@[simp] theorem State.accept_fg (s : State) (r : Request) (rest : List Request) :
    (s.accept r rest).fg = s.fg := id rfl
@[simp] theorem State.accept_bg (s : State) (r : Request) (rest : List Request) :
    (s.accept r rest).bg = s.bg := id rfl
@[simp] theorem State.accept_phase (s : State) (r : Request) (rest : List Request) :
    (s.accept r rest).phase = s.phase := id rfl
@[simp] theorem State.accept_port (s : State) (r : Request) (rest : List Request) :
    (s.accept r rest).port = rest := id rfl
@[simp] theorem State.accept_clip (s : State) (r : Request) (rest : List Request) :
    (s.accept r rest).clip = r.clip := id rfl
@[simp] theorem State.accept_fb (s : State) (r : Request) (rest : List Request) :
    (s.accept r rest).fb = r.fb.getD s.fb := id rfl
@[simp] theorem State.accept_response (s : State) (r : Request) (rest : List Request) :
    (s.accept r rest).response = .none := id rfl
@[simp] theorem State.accept_draws (s : State) (r : Request) (rest : List Request) :
    (s.accept r rest).draws = s.draws := id rfl
@[simp] theorem State.accept_layer (s : State) (r : Request) (rest : List Request) (L : LayerId) :
    (s.accept r rest).layer L = s.layer L := by cases L <;> rfl
@[simp] theorem State.accept_flip (s : State) (r : Request) (rest : List Request) : (s.accept r rest).flip = s.flip := id rfl
@[simp] theorem State.accept_prio (s : State) (r : Request) (rest : List Request) : (s.accept r rest).prio = s.prio := id rfl
@[simp] theorem State.accept_ramByte (cfg : Config) (s : State) (r : Request) (rest : List Request) (a : Nat) :
    ramByte cfg (s.accept r rest) a = ramByte cfg s a := id rfl

/-! ### `memWrite` -/

@[simp] theorem memWrite_mem (cfg : Config) (s : State) (r : Region) (i : Nat) (v : Byte) :
    (memWrite cfg s r i v).mem = writeCells cfg.powerUpByte s.mem (r.base + i) v := id rfl
@[simp] theorem memWrite_scroll (cfg : Config) (s : State) (r : Region) (i : Nat) (v : Byte) :
    (memWrite cfg s r i v).scroll = s.scroll := id rfl
@[simp] theorem memWrite_latch (cfg : Config) (s : State) (r : Region) (i : Nat) (v : Byte) :
    (memWrite cfg s r i v).latch = s.latch := id rfl
@[simp] theorem memWrite_palette (cfg : Config) (s : State) (r : Region) (i : Nat) (v : Byte) :
    (memWrite cfg s r i v).palette = s.palette := id rfl
@[simp] theorem memWrite_fg (cfg : Config) (s : State) (r : Region) (i : Nat) (v : Byte) :
    (memWrite cfg s r i v).fg = s.fg := id rfl
@[simp] theorem memWrite_bg (cfg : Config) (s : State) (r : Region) (i : Nat) (v : Byte) :
    (memWrite cfg s r i v).bg = s.bg := id rfl
@[simp] theorem memWrite_phase (cfg : Config) (s : State) (r : Region) (i : Nat) (v : Byte) :
    (memWrite cfg s r i v).phase = s.phase := id rfl
@[simp] theorem memWrite_port (cfg : Config) (s : State) (r : Region) (i : Nat) (v : Byte) :
    (memWrite cfg s r i v).port = s.port := id rfl
@[simp] theorem memWrite_clip (cfg : Config) (s : State) (r : Region) (i : Nat) (v : Byte) :
    (memWrite cfg s r i v).clip = s.clip := id rfl
@[simp] theorem memWrite_fb (cfg : Config) (s : State) (r : Region) (i : Nat) (v : Byte) :
    (memWrite cfg s r i v).fb = s.fb := id rfl
@[simp] theorem memWrite_response (cfg : Config) (s : State) (r : Region) (i : Nat) (v : Byte) :
    (memWrite cfg s r i v).response = s.response := id rfl
@[simp] theorem memWrite_draws (cfg : Config) (s : State) (r : Region) (i : Nat) (v : Byte) :
    (memWrite cfg s r i v).draws = s.draws := id rfl
@[simp] theorem memWrite_layer (cfg : Config) (s : State) (r : Region) (i : Nat) (v : Byte) (L : LayerId) :
    (memWrite cfg s r i v).layer L = s.layer L := by cases L <;> rfl
@[simp] theorem memWrite_flip (cfg : Config) (s : State) (r : Region) (i : Nat) (v : Byte) : (memWrite cfg s r i v).flip = s.flip := id rfl
@[simp] theorem memWrite_prio (cfg : Config) (s : State) (r : Region) (i : Nat) (v : Byte) : (memWrite cfg s r i v).prio = s.prio := id rfl

/-! ### `readRam` -/

@[simp] theorem readRam_mem (cfg : Config) (s : State) (r : Region) (i : Nat) :
    (readRam cfg s r i).mem = s.mem := id rfl
@[simp] theorem readRam_scroll (cfg : Config) (s : State) (r : Region) (i : Nat) :
    (readRam cfg s r i).scroll = s.scroll := id rfl
@[simp] theorem readRam_latch (cfg : Config) (s : State) (r : Region) (i : Nat) :
    (readRam cfg s r i).latch = s.latch := id rfl
@[simp] theorem readRam_palette (cfg : Config) (s : State) (r : Region) (i : Nat) :
    (readRam cfg s r i).palette = s.palette := id rfl
@[simp] theorem readRam_fg (cfg : Config) (s : State) (r : Region) (i : Nat) :
    (readRam cfg s r i).fg = s.fg := id rfl
@[simp] theorem readRam_bg (cfg : Config) (s : State) (r : Region) (i : Nat) :
    (readRam cfg s r i).bg = s.bg := id rfl
@[simp] theorem readRam_phase (cfg : Config) (s : State) (r : Region) (i : Nat) :
    (readRam cfg s r i).phase = s.phase := id rfl
@[simp] theorem readRam_port (cfg : Config) (s : State) (r : Region) (i : Nat) :
    (readRam cfg s r i).port = s.port := id rfl
@[simp] theorem readRam_clip (cfg : Config) (s : State) (r : Region) (i : Nat) :
    (readRam cfg s r i).clip = s.clip := id rfl
@[simp] theorem readRam_fb (cfg : Config) (s : State) (r : Region) (i : Nat) :
    (readRam cfg s r i).fb = s.fb := id rfl
@[simp] theorem readRam_response (cfg : Config) (s : State) (r : Region) (i : Nat) :
    (readRam cfg s r i).response = .byte (memRead cfg s r i) := id rfl
@[simp] theorem readRam_draws (cfg : Config) (s : State) (r : Region) (i : Nat) :
    (readRam cfg s r i).draws = s.draws := id rfl
@[simp] theorem readRam_layer (cfg : Config) (s : State) (r : Region) (i : Nat) (L : LayerId) :
    (readRam cfg s r i).layer L = s.layer L := by cases L <;> rfl
@[simp] theorem readRam_flip (cfg : Config) (s : State) (r : Region) (i : Nat) : (readRam cfg s r i).flip = s.flip := id rfl
@[simp] theorem readRam_prio (cfg : Config) (s : State) (r : Region) (i : Nat) : (readRam cfg s r i).prio = s.prio := id rfl
@[simp] theorem readRam_ramByte (cfg : Config) (s : State) (r : Region) (i : Nat) (a : Nat) :
    ramByte cfg (readRam cfg s r i) a = ramByte cfg s a := id rfl

/-! ### `drawBank` -/

@[simp] theorem drawBank_mem (cfg : Config) (s : State) (b : Bank) :
    (drawBank cfg s b).mem = s.mem := id rfl
@[simp] theorem drawBank_scroll (cfg : Config) (s : State) (b : Bank) :
    (drawBank cfg s b).scroll = s.scroll := id rfl
@[simp] theorem drawBank_latch (cfg : Config) (s : State) (b : Bank) :
    (drawBank cfg s b).latch = s.latch := id rfl
@[simp] theorem drawBank_palette (cfg : Config) (s : State) (b : Bank) :
    (drawBank cfg s b).palette = s.palette := id rfl
@[simp] theorem drawBank_fg (cfg : Config) (s : State) (b : Bank) :
    (drawBank cfg s b).fg = s.fg := id rfl
@[simp] theorem drawBank_bg (cfg : Config) (s : State) (b : Bank) :
    (drawBank cfg s b).bg = s.bg := id rfl
@[simp] theorem drawBank_phase (cfg : Config) (s : State) (b : Bank) :
    (drawBank cfg s b).phase = s.phase := id rfl
@[simp] theorem drawBank_port (cfg : Config) (s : State) (b : Bank) :
    (drawBank cfg s b).port = s.port := id rfl
@[simp] theorem drawBank_clip (cfg : Config) (s : State) (b : Bank) :
    (drawBank cfg s b).clip = s.clip := id rfl
@[simp] theorem drawBank_response (cfg : Config) (s : State) (b : Bank) :
    (drawBank cfg s b).response = s.response := id rfl
@[simp] theorem drawBank_draws (cfg : Config) (s : State) (b : Bank) :
    (drawBank cfg s b).draws = s.draws := id rfl
@[simp] theorem drawBank_layer (cfg : Config) (s : State) (b : Bank) (L : LayerId) :
    (drawBank cfg s b).layer L = s.layer L := by cases L <;> rfl
@[simp] theorem drawBank_flip (cfg : Config) (s : State) (b : Bank) : (drawBank cfg s b).flip = s.flip := id rfl
@[simp] theorem drawBank_prio (cfg : Config) (s : State) (b : Bank) : (drawBank cfg s b).prio = s.prio := id rfl
@[simp] theorem drawBank_ramByte (cfg : Config) (s : State) (b : Bank) (a : Nat) :
    ramByte cfg (drawBank cfg s b) a = ramByte cfg s a := id rfl

/-! ### `State.setLayer` -/

@[simp] theorem State.setLayer_mem (s : State) (L : LayerId) (l : TileLayer) :
    (s.setLayer L l).mem = s.mem := by cases L <;> rfl
@[simp] theorem State.setLayer_scroll (s : State) (L : LayerId) (l : TileLayer) :
    (s.setLayer L l).scroll = s.scroll := by cases L <;> rfl
@[simp] theorem State.setLayer_latch (s : State) (L : LayerId) (l : TileLayer) :
    (s.setLayer L l).latch = s.latch := by cases L <;> rfl
@[simp] theorem State.setLayer_palette (s : State) (L : LayerId) (l : TileLayer) :
    (s.setLayer L l).palette = s.palette := by cases L <;> rfl
@[simp] theorem State.setLayer_phase (s : State) (L : LayerId) (l : TileLayer) :
    (s.setLayer L l).phase = s.phase := by cases L <;> rfl
@[simp] theorem State.setLayer_port (s : State) (L : LayerId) (l : TileLayer) :
    (s.setLayer L l).port = s.port := by cases L <;> rfl
@[simp] theorem State.setLayer_clip (s : State) (L : LayerId) (l : TileLayer) :
    (s.setLayer L l).clip = s.clip := by cases L <;> rfl
@[simp] theorem State.setLayer_fb (s : State) (L : LayerId) (l : TileLayer) :
    (s.setLayer L l).fb = s.fb := by cases L <;> rfl
@[simp] theorem State.setLayer_response (s : State) (L : LayerId) (l : TileLayer) :
    (s.setLayer L l).response = s.response := by cases L <;> rfl
@[simp] theorem State.setLayer_draws (s : State) (L : LayerId) (l : TileLayer) :
    (s.setLayer L l).draws = s.draws := by cases L <;> rfl
@[simp] theorem State.setLayer_flip (s : State) (L : LayerId) (l : TileLayer) : (s.setLayer L l).flip = s.flip := by cases L <;> rfl
@[simp] theorem State.setLayer_prio (s : State) (L : LayerId) (l : TileLayer) : (s.setLayer L l).prio = s.prio := by cases L <;> rfl
@[simp] theorem State.setLayer_ramByte (cfg : Config) (s : State) (L : LayerId) (l : TileLayer) (a : Nat) :
    ramByte cfg (s.setLayer L l) a = ramByte cfg s a := by cases L <;> rfl

/-! ### `State.refresh` -/

@[simp] theorem State.refresh_mem (cfg : Config) (s : State) (L : LayerId) :
    (s.refresh cfg L).mem = s.mem := by
  simp [State.refresh]
@[simp] theorem State.refresh_scroll (cfg : Config) (s : State) (L : LayerId) :
    (s.refresh cfg L).scroll = s.scroll := by
  simp [State.refresh]
@[simp] theorem State.refresh_latch (cfg : Config) (s : State) (L : LayerId) :
    (s.refresh cfg L).latch = s.latch := by
  simp [State.refresh]
@[simp] theorem State.refresh_palette (cfg : Config) (s : State) (L : LayerId) :
    (s.refresh cfg L).palette = s.palette := by
  simp [State.refresh]
@[simp] theorem State.refresh_phase (cfg : Config) (s : State) (L : LayerId) :
    (s.refresh cfg L).phase = s.phase := by
  simp [State.refresh]
@[simp] theorem State.refresh_port (cfg : Config) (s : State) (L : LayerId) :
    (s.refresh cfg L).port = s.port := by
  simp [State.refresh]
@[simp] theorem State.refresh_clip (cfg : Config) (s : State) (L : LayerId) :
    (s.refresh cfg L).clip = s.clip := by
  simp [State.refresh]
@[simp] theorem State.refresh_fb (cfg : Config) (s : State) (L : LayerId) :
    (s.refresh cfg L).fb = s.fb := by
  simp [State.refresh]
@[simp] theorem State.refresh_response (cfg : Config) (s : State) (L : LayerId) :
    (s.refresh cfg L).response = s.response := by
  simp [State.refresh]
@[simp] theorem State.refresh_draws (cfg : Config) (s : State) (L : LayerId) :
    (s.refresh cfg L).draws = s.draws := by
  simp [State.refresh]
@[simp] theorem State.refresh_flip (cfg : Config) (s : State) (L : LayerId) : (s.refresh cfg L).flip = s.flip := by
  simp [State.flip]
@[simp] theorem State.refresh_prio (cfg : Config) (s : State) (L : LayerId) : (s.refresh cfg L).prio = s.prio := by
  simp [State.prio]
@[simp] theorem State.refresh_ramByte (cfg : Config) (s : State) (L : LayerId) (a : Nat) :
    ramByte cfg (s.refresh cfg L) a = ramByte cfg s a := by
  simp [ramByte]

/-! ### `drawLayer` -/

@[simp] theorem drawLayer_mem (cfg : Config) (s : State) (L : LayerId) :
    (drawLayer cfg s L).mem = s.mem := by
  simp [drawLayer]
@[simp] theorem drawLayer_scroll (cfg : Config) (s : State) (L : LayerId) :
    (drawLayer cfg s L).scroll = s.scroll := by
  simp [drawLayer]
@[simp] theorem drawLayer_latch (cfg : Config) (s : State) (L : LayerId) :
    (drawLayer cfg s L).latch = s.latch := by
  simp [drawLayer]
@[simp] theorem drawLayer_palette (cfg : Config) (s : State) (L : LayerId) :
    (drawLayer cfg s L).palette = s.palette := by
  simp [drawLayer]
@[simp] theorem drawLayer_phase (cfg : Config) (s : State) (L : LayerId) :
    (drawLayer cfg s L).phase = s.phase := by
  simp [drawLayer]
@[simp] theorem drawLayer_port (cfg : Config) (s : State) (L : LayerId) :
    (drawLayer cfg s L).port = s.port := by
  simp [drawLayer]
@[simp] theorem drawLayer_clip (cfg : Config) (s : State) (L : LayerId) :
    (drawLayer cfg s L).clip = s.clip := by
  simp [drawLayer]
@[simp] theorem drawLayer_fb (cfg : Config) (s : State) (L : LayerId) :
    (drawLayer cfg s L).fb = s.fb.paint (layerInk cfg (s.refresh cfg L) L) := by
  simp [drawLayer]
@[simp] theorem drawLayer_response (cfg : Config) (s : State) (L : LayerId) :
    (drawLayer cfg s L).response = s.response := by
  simp [drawLayer]
@[simp] theorem drawLayer_draws (cfg : Config) (s : State) (L : LayerId) :
    (drawLayer cfg s L).draws = s.draws := by
  simp [drawLayer]
@[simp] theorem drawLayer_flip (cfg : Config) (s : State) (L : LayerId) : (drawLayer cfg s L).flip = s.flip := by
  simp [State.flip]
@[simp] theorem drawLayer_prio (cfg : Config) (s : State) (L : LayerId) : (drawLayer cfg s L).prio = s.prio := by
  simp [State.prio]
@[simp] theorem drawLayer_ramByte (cfg : Config) (s : State) (L : LayerId) (a : Nat) :
    ramByte cfg (drawLayer cfg s L) a = ramByte cfg s a := by
  simp [ramByte]

/-! ### `writeTile` -/

@[simp] theorem writeTile_mem (cfg : Config) (s : State) (L : LayerId) (p : Plane) (c : Nat) (d : Byte) :
    (writeTile cfg s L p c d).mem = writeCells cfg.powerUpByte s.mem ((tileRegion L p).base + c) d := by cases L <;> rfl
@[simp] theorem writeTile_scroll (cfg : Config) (s : State) (L : LayerId) (p : Plane) (c : Nat) (d : Byte) :
    (writeTile cfg s L p c d).scroll = s.scroll := by cases L <;> rfl
@[simp] theorem writeTile_latch (cfg : Config) (s : State) (L : LayerId) (p : Plane) (c : Nat) (d : Byte) :
    (writeTile cfg s L p c d).latch = s.latch := by cases L <;> rfl
@[simp] theorem writeTile_palette (cfg : Config) (s : State) (L : LayerId) (p : Plane) (c : Nat) (d : Byte) :
    (writeTile cfg s L p c d).palette = s.palette := by cases L <;> rfl
@[simp] theorem writeTile_phase (cfg : Config) (s : State) (L : LayerId) (p : Plane) (c : Nat) (d : Byte) :
    (writeTile cfg s L p c d).phase = s.phase := by cases L <;> rfl
@[simp] theorem writeTile_port (cfg : Config) (s : State) (L : LayerId) (p : Plane) (c : Nat) (d : Byte) :
    (writeTile cfg s L p c d).port = s.port := by cases L <;> rfl
@[simp] theorem writeTile_clip (cfg : Config) (s : State) (L : LayerId) (p : Plane) (c : Nat) (d : Byte) :
    (writeTile cfg s L p c d).clip = s.clip := by cases L <;> rfl
@[simp] theorem writeTile_fb (cfg : Config) (s : State) (L : LayerId) (p : Plane) (c : Nat) (d : Byte) :
    (writeTile cfg s L p c d).fb = s.fb := by cases L <;> rfl
@[simp] theorem writeTile_response (cfg : Config) (s : State) (L : LayerId) (p : Plane) (c : Nat) (d : Byte) :
    (writeTile cfg s L p c d).response = s.response := by cases L <;> rfl
@[simp] theorem writeTile_draws (cfg : Config) (s : State) (L : LayerId) (p : Plane) (c : Nat) (d : Byte) :
    (writeTile cfg s L p c d).draws = s.draws := by cases L <;> rfl
@[simp] theorem writeTile_flip (cfg : Config) (s : State) (L : LayerId) (p : Plane) (c : Nat) (d : Byte) : (writeTile cfg s L p c d).flip = s.flip := by cases L <;> rfl
@[simp] theorem writeTile_prio (cfg : Config) (s : State) (L : LayerId) (p : Plane) (c : Nat) (d : Byte) : (writeTile cfg s L p c d).prio = s.prio := by cases L <;> rfl

/-! ### One layer and the other -/

@[simp] theorem State.setLayer_layer (s : State) (L : LayerId) (l : TileLayer) :
    (s.setLayer L l).layer L = l := by cases L <;> rfl

theorem State.setLayer_layer_other (s : State) {L M : LayerId} (h : M ≠ L) (l : TileLayer) :
    (s.setLayer L l).layer M = s.layer M := by cases L <;> cases M <;> first | rfl | exact absurd rfl h

@[simp] theorem State.refresh_layer (cfg : Config) (s : State) (L : LayerId) :
    (s.refresh cfg L).layer L = (s.layer L).refresh (tileInfo cfg s L) := by
  simp [State.refresh]

theorem State.refresh_layer_other (cfg : Config) (s : State) {L M : LayerId} (h : M ≠ L) :
    (s.refresh cfg L).layer M = s.layer M := State.setLayer_layer_other s h _

theorem drawLayer_layer_eq (cfg : Config) (s : State) (L M : LayerId) :
    (drawLayer cfg s L).layer M = (s.refresh cfg L).layer M := by
  cases M <;> simp only [State.layer, drawLayer]

@[simp] theorem drawLayer_layer (cfg : Config) (s : State) (L : LayerId) :
    (drawLayer cfg s L).layer L = (s.layer L).refresh (tileInfo cfg s L) := by
  rw [drawLayer_layer_eq, State.refresh_layer]

theorem drawLayer_layer_other (cfg : Config) (s : State) {L M : LayerId} (h : M ≠ L) :
    (drawLayer cfg s L).layer M = s.layer M := by
  rw [drawLayer_layer_eq, State.refresh_layer_other cfg s h]

@[simp] theorem writeTile_layer (cfg : Config) (s : State) (L : LayerId) (p : Plane) (c : Nat) (d : Byte) :
    (writeTile cfg s L p c d).layer L = (s.layer L).markDirty c := by cases L <;> rfl

theorem writeTile_layer_other (cfg : Config) (s : State) {L M : LayerId} (h : M ≠ L) (p : Plane) (c : Nat)
    (d : Byte) : (writeTile cfg s L p c d).layer M = s.layer M := by
  cases L <;> cases M <;> first | rfl | exact absurd rfl h

/-! ### `TileLayer` -/

@[simp] theorem TileLayer.markDirty_cache (l : TileLayer) (c : Nat) : (l.markDirty c).cache = l.cache := id rfl

@[simp] theorem TileLayer.markDirty_rederive (l : TileLayer) (c : Nat) :
    (l.markDirty c).rederive = l.rederive := id rfl

@[simp] theorem TileLayer.clearDirty_cache (l : TileLayer) (c : Nat) : (l.clearDirty c).cache = l.cache := id rfl

@[simp] theorem TileLayer.clearDirty_rederive (l : TileLayer) (c : Nat) :
    (l.clearDirty c).rederive = l.rederive := id rfl

end Sys2Proof.Machine
end

