-- ==== Sys2Proof/Laws/Frame.lean ====
section
/-! SUPPORT. The laws of the framebuffer: what each pixel holds after a set, a paint, a plot, and after the
blit of a whole sprite cell. -/

namespace Sys2Proof.Machine

theorem Frame.get_set (f : Frame) (a b x y : Fin 256) (p : Pen) :
    (f.set a b p).get x y = if x = a ∧ y = b then p else f.get x y := by
  have e1 : (a : Nat) = (x : Nat) ↔ x = a := by rw [Fin.ext_iff]; exact eq_comm
  have e2 : (b : Nat) = (y : Nat) ↔ y = b := by rw [Fin.ext_iff]; exact eq_comm
  simp only [Frame.get, Frame.set, Fin.getElem_fin, Vector.getElem_set, e1]
  by_cases hx : x = a
  · subst hx; simp [Vector.getElem_set, e2]
  · simp [hx]

@[simp] theorem Frame.get_paint (f : Frame) (ink : Fin 256 → Fin 256 → Option Pen) (x y : Fin 256) :
    (f.paint ink).get x y = (ink x y).getD (f.get x y) := by
  unfold Frame.paint
  simp only [Frame.get, Fin.getElem_fin, Vector.getElem_ofFn]

/-- Two framebuffers with the same pixels are equal. -/
theorem Frame.ext_get {f g : Frame} (h : ∀ x y, f.get x y = g.get x y) : f = g := by
  obtain ⟨f⟩ := f
  obtain ⟨g⟩ := g
  congr 1
  refine Vector.ext fun i hi => Vector.ext fun j hj => ?_
  exact h ⟨i, hi⟩ ⟨j, hj⟩

theorem Frame.get_plot (f : Frame) (c : Clip) (dx dy : Int) (p : Pen) (x y : Fin 256) :
    (f.plot c dx dy p).get x y =
      if InsidePixel c x y ∧ dx = x.val ∧ dy = y.val then p else f.get x y := by
  unfold Frame.plot
  split
  · rename_i h
    rw [Frame.get_set]
    congr 1
    simp only [Fin.ext_iff, eq_iff_iff]
    constructor
    · rintro ⟨h1, h2⟩
      have e1 : dx = x.val := by omega
      have e2 : dy = y.val := by omega
      subst e1 e2
      exact ⟨h, rfl, rfl⟩
    · rintro ⟨-, rfl, rfl⟩
      exact ⟨by simp, by simp⟩
  · rename_i h
    rw [if_neg]
    rintro ⟨h', rfl, rfl⟩
    exact h h'

section Blit

variable (cfg : Config) (c : Clip) (d : Sprite) (x y : Fin 256)

/-- The column a cell column lands on is this one exactly if this one's distance from the corner is in
the box and unmirrors to it. -/
theorem mirror_iff (m : Bool) (size u : Nat) (o z : Int) (hu : u < size) :
    o + (if m then (size : Int) - 1 - u else u) = z ↔
      (0 ≤ z - o ∧ z - o < size) ∧ unmirror m size (z - o) = u := by
  cases m <;> simp only [unmirror, Bool.false_eq_true, if_false, if_true] <;> omega

theorem blitPixel_get (f : Frame) (u v : Nat) (hu : u < cfg.spriteW) (hv : v < cfg.spriteH) :
    (blitPixel cfg c d v f u).get x y =
      if InsidePixel c x y ∧
          ((0 ≤ (x.val : Int) - d.x ∧ (x.val : Int) - d.x < cfg.spriteW) ∧
            unmirror d.flipx cfg.spriteW (x.val - d.x) = u) ∧
          ((0 ≤ (y.val : Int) - d.y ∧ (y.val : Int) - d.y < cfg.spriteH) ∧
            unmirror d.flipy cfg.spriteH (y.val - d.y) = v) ∧
          (cfg.spriteGfx d.code u v).toNat ≠ 0
      then spritePen cfg d (cfg.spriteGfx d.code u v).toNat else f.get x y := by
  unfold blitPixel
  by_cases hp : (cfg.spriteGfx d.code u v).toNat = 0
  · simp [hp]
  · simp only [hp, ne_eq, not_false_eq_true, if_true, Frame.get_plot, and_true]
    simp only [mirror_iff d.flipx cfg.spriteW u d.x x.val hu, mirror_iff d.flipy cfg.spriteH v d.y y.val hv]

theorem blitRow_get_aux (f : Frame) (v : Nat) (hv : v < cfg.spriteH) (n : Nat) (hn : n ≤ cfg.spriteW) :
    ((List.range n).foldl (blitPixel cfg c d v) f).get x y =
      if InsidePixel c x y ∧
          ((0 ≤ (x.val : Int) - d.x ∧ (x.val : Int) - d.x < cfg.spriteW) ∧
            unmirror d.flipx cfg.spriteW (x.val - d.x) < n) ∧
          ((0 ≤ (y.val : Int) - d.y ∧ (y.val : Int) - d.y < cfg.spriteH) ∧
            unmirror d.flipy cfg.spriteH (y.val - d.y) = v) ∧
          (cfg.spriteGfx d.code (unmirror d.flipx cfg.spriteW (x.val - d.x)) v).toNat ≠ 0
      then spritePen cfg d (cfg.spriteGfx d.code (unmirror d.flipx cfg.spriteW (x.val - d.x)) v).toNat
      else f.get x y := by
  induction n with
  | zero => simp
  | succ n ih =>
    rw [List.range_succ, List.foldl_append, List.foldl_cons, List.foldl_nil,
      blitPixel_get cfg c d x y _ n v (by omega) hv, ih (by omega)]
    by_cases e : unmirror d.flipx cfg.spriteW (x.val - d.x) = n
    · simp only [e, Nat.lt_irrefl, and_false, false_and, if_false, and_true, Nat.lt_succ_self]
    · have : unmirror d.flipx cfg.spriteW (x.val - d.x) < n + 1 ↔
          unmirror d.flipx cfg.spriteW (x.val - d.x) < n := by omega
      simp only [e, this, and_false, false_and, if_false]

theorem unmirror_lt {m : Bool} {size : Nat} {k : Int} (h : 0 ≤ k ∧ k < size) : unmirror m size k < size := by
  cases m <;> simp only [unmirror, Bool.false_eq_true, if_false, if_true] <;> omega

theorem blitRow_get (f : Frame) (v : Nat) (hv : v < cfg.spriteH) :
    (blitRow cfg c d f v).get x y =
      if InsidePixel c x y ∧
          (0 ≤ (x.val : Int) - d.x ∧ (x.val : Int) - d.x < cfg.spriteW) ∧
          ((0 ≤ (y.val : Int) - d.y ∧ (y.val : Int) - d.y < cfg.spriteH) ∧
            unmirror d.flipy cfg.spriteH (y.val - d.y) = v) ∧
          (cfg.spriteGfx d.code (unmirror d.flipx cfg.spriteW (x.val - d.x)) v).toNat ≠ 0
      then spritePen cfg d (cfg.spriteGfx d.code (unmirror d.flipx cfg.spriteW (x.val - d.x)) v).toNat
      else f.get x y := by
  rw [blitRow, blitRow_get_aux cfg c d x y f v hv _ le_rfl]
  congr 1
  simp only [eq_iff_iff]
  constructor
  · rintro ⟨h1, ⟨h2, -⟩, h3⟩; exact ⟨h1, h2, h3⟩
  · rintro ⟨h1, h2, h3⟩; exact ⟨h1, ⟨h2, unmirror_lt h2⟩, h3⟩

theorem blit_get_aux (f : Frame) (n : Nat) (hn : n ≤ cfg.spriteH) :
    ((List.range n).foldl (blitRow cfg c d) f).get x y =
      if InsidePixel c x y ∧
          (0 ≤ (x.val : Int) - d.x ∧ (x.val : Int) - d.x < cfg.spriteW) ∧
          ((0 ≤ (y.val : Int) - d.y ∧ (y.val : Int) - d.y < cfg.spriteH) ∧
            unmirror d.flipy cfg.spriteH (y.val - d.y) < n) ∧
          (cfg.spriteGfx d.code (unmirror d.flipx cfg.spriteW (x.val - d.x))
            (unmirror d.flipy cfg.spriteH (y.val - d.y))).toNat ≠ 0
      then spritePen cfg d (cfg.spriteGfx d.code (unmirror d.flipx cfg.spriteW (x.val - d.x))
            (unmirror d.flipy cfg.spriteH (y.val - d.y))).toNat
      else f.get x y := by
  induction n with
  | zero => simp
  | succ n ih =>
    rw [List.range_succ, List.foldl_append, List.foldl_cons, List.foldl_nil,
      blitRow_get cfg c d x y _ n (by omega), ih (by omega)]
    by_cases e : unmirror d.flipy cfg.spriteH (y.val - d.y) = n
    · simp only [e, Nat.lt_irrefl, and_false, false_and, if_false, and_true, Nat.lt_succ_self]
    · have : unmirror d.flipy cfg.spriteH (y.val - d.y) < n + 1 ↔
          unmirror d.flipy cfg.spriteH (y.val - d.y) < n := by omega
      simp only [e, this, and_false, false_and, if_false]

/-- Everything a blit can do, pixel by pixel (R138): inside the clip, a pixel takes the pen of the cell pixel
that lands on it, if there is one and it is opaque; every other pixel stays. -/
theorem blit_get (f : Frame) :
    (blit cfg c d f).get x y =
      if InsidePixel c x y then (spriteSource cfg d x.val y.val).getD (f.get x y) else f.get x y := by
  rw [blit, blit_get_aux cfg c d x y f _ le_rfl]
  by_cases hc : InsidePixel c x y
  · by_cases hb : 0 ≤ (x.val : Int) - d.x ∧ (x.val : Int) - d.x < cfg.spriteW ∧
        0 ≤ (y.val : Int) - d.y ∧ (y.val : Int) - d.y < cfg.spriteH
    · have hy := unmirror_lt (m := d.flipy) (size := cfg.spriteH) (k := y.val - d.y) ⟨hb.2.2.1, hb.2.2.2⟩
      rw [if_pos hc, spriteSource, if_pos hb]
      by_cases hp : (cfg.spriteGfx d.code (unmirror d.flipx cfg.spriteW (x.val - d.x))
          (unmirror d.flipy cfg.spriteH (y.val - d.y))).toNat = 0
      · rw [if_neg (fun h => h.2.2.2 hp)]; simp [hp]
      · rw [if_pos ⟨hc, ⟨hb.1, hb.2.1⟩, ⟨hb.2.2, hy⟩, hp⟩]; simp [hp]
    · rw [if_neg (fun h => hb ⟨h.2.1.1, h.2.1.2, h.2.2.1.1.1, h.2.2.1.1.2⟩), if_pos hc, spriteSource, if_neg hb]
      rfl
  · rw [if_neg (fun h => hc h.1), if_neg hc]

end Blit

end Sys2Proof.Machine
end

