-- ==== Sys2Proof/Laws/Memory.lean ====
section
/-! SUPPORT. The laws of memory: what a read gives after a write, the canonical form, and that memories
which read alike are equal data. -/

namespace Sys2Proof.Machine

variable {d : Nat → Byte} {m : List Host.Cell} {a b : Nat} {v : Byte}

@[simp] theorem readCells_nil : readCells d [] a = d a := rfl

theorem readCells_put_same : readCells d (putCell m a v) a = v := by
  induction m with
  | nil => simp [putCell, readCells]
  | cons c rest ih =>
    obtain ⟨k, w⟩ := c
    unfold putCell
    split
    · simp [readCells]
    · split
      · simp [readCells]
      · rename_i h
        simp [readCells, ih, Ne.symm h]

theorem readCells_put_other (h : b ≠ a) : readCells d (putCell m a v) b = readCells d m b := by
  induction m with
  | nil => simp [putCell, readCells, Ne.symm h]
  | cons c rest ih =>
    obtain ⟨k, w⟩ := c
    unfold putCell
    split
    · simp [readCells, Ne.symm h]
    · split
      · rename_i e; subst e; simp [readCells, Ne.symm h]
      · simp [readCells, ih]

theorem readCells_drop_same : readCells d (m.filter (fun c => c.1 ≠ a)) a = d a := by
  induction m with
  | nil => rfl
  | cons c rest ih =>
    obtain ⟨k, w⟩ := c
    by_cases h : k = a
    · simpa [h] using ih
    · simpa [h, readCells] using ih

theorem readCells_drop_other (h : b ≠ a) :
    readCells d (m.filter (fun c => c.1 ≠ a)) b = readCells d m b := by
  induction m with
  | nil => rfl
  | cons c rest ih =>
    obtain ⟨k, w⟩ := c
    by_cases e : k = a
    · subst e; simpa [readCells, Ne.symm h] using ih
    · by_cases e' : k = b
      · simp [e', readCells, h]
      · simpa [e, e', readCells] using ih

/-- A read after a write to the same address gives the byte written. -/
@[simp] theorem readCells_write_same : readCells d (writeCells d m a v) a = v := by
  unfold writeCells
  split
  · rename_i h; rw [readCells_drop_same, h]
  · exact readCells_put_same

/-- A write leaves every other address alone. -/
theorem readCells_write_other (h : b ≠ a) : readCells d (writeCells d m a v) b = readCells d m b := by
  unfold writeCells
  split
  · exact readCells_drop_other h
  · exact readCells_put_other h

/-! ### The canonical form -/

theorem mem_putCell {c : Host.Cell} (h : c ∈ putCell m a v) : c = (a, v) ∨ c ∈ m := by
  induction m with
  | nil => simpa [putCell] using h
  | cons c' rest ih =>
    obtain ⟨k, w⟩ := c'
    unfold putCell at h
    split at h
    · simpa using h
    · split at h
      · rcases List.mem_cons.1 h with h | h
        · exact .inl h
        · exact .inr (List.mem_cons_of_mem _ h)
      · rcases List.mem_cons.1 h with h | h
        · exact .inr (h ▸ List.mem_cons_self)
        · exact (ih h).imp id (List.mem_cons_of_mem _)

theorem putCell_sorted (h : m.Pairwise (fun x y => x.1 < y.1)) :
    (putCell m a v).Pairwise (fun x y => x.1 < y.1) := by
  induction m with
  | nil => simp [putCell]
  | cons c rest ih =>
    obtain ⟨k, w⟩ := c
    obtain ⟨hk, hr⟩ := List.pairwise_cons.1 h
    unfold putCell
    split
    · rename_i hak
      refine List.pairwise_cons.2 ⟨?_, h⟩
      intro c hc
      rcases List.mem_cons.1 hc with e | hc
      · exact e ▸ hak
      · exact hak.trans (hk c hc)
    · split
      · rename_i e; exact List.pairwise_cons.2 ⟨fun c hc => e ▸ hk c hc, hr⟩
      · rename_i h1 h2
        refine List.pairwise_cons.2 ⟨fun c hc => ?_, ih hr⟩
        rcases mem_putCell hc with e | hc
        · subst e; show k < a; omega
        · exact hk c hc

theorem Memory.wf_nil : Memory.wf d [] := ⟨List.Pairwise.nil, fun _ h => nomatch h⟩

/-- Every write to a RAM address keeps the canonical form. -/
theorem writeCells_wf (ha : a < 0x1040) (h : Memory.wf d m) : Memory.wf d (writeCells d m a v) := by
  obtain ⟨hs, hc⟩ := h
  unfold writeCells
  split
  · exact ⟨hs.filter _, fun c hm => hc c (List.mem_filter.1 hm).1⟩
  · rename_i hv
    refine ⟨putCell_sorted hs, fun c hm => ?_⟩
    rcases mem_putCell hm with e | hm
    · subst e; exact ⟨ha, hv⟩
    · exact hc c hm

/-- An address below every listed one reads as its power-up draw. -/
theorem readCells_below (h : ∀ c ∈ m, a < c.1) : readCells d m a = d a := by
  induction m with
  | nil => rfl
  | cons c rest ih =>
    have h1 := h c List.mem_cons_self
    simp only [readCells]
    rw [if_neg (by omega)]
    exact ih fun c hc => h c (List.mem_cons_of_mem _ hc)

/-- Two canonical memories that read alike everywhere are the same list. -/
theorem Memory.ext {m n : List Host.Cell} (hm : Memory.wf d m) (hn : Memory.wf d n)
    (h : ∀ a, readCells d m a = readCells d n a) : m = n := by
  induction m generalizing n with
  | nil =>
    cases n with
    | nil => rfl
    | cons c rest =>
      obtain ⟨k, w⟩ := c
      exact absurd (by simpa [readCells] using (h k).symm) (hn.2 (k, w) List.mem_cons_self).2
  | cons c rest ih =>
    obtain ⟨k, w⟩ := c
    obtain ⟨hk, hr⟩ := List.pairwise_cons.1 hm.1
    have hkw := (hm.2 (k, w) List.mem_cons_self).2
    cases n with
    | nil => exact absurd (by simpa [readCells] using h k) hkw
    | cons c' rest' =>
      obtain ⟨k', w'⟩ := c'
      obtain ⟨hk', hr'⟩ := List.pairwise_cons.1 hn.1
      have hkw' := (hn.2 (k', w') List.mem_cons_self).2
      have hkk : k = k' := by
        rcases Nat.lt_trichotomy k k' with hlt | heq | hgt
        · have := h k
          rw [readCells_below (m := (k', w') :: rest') (a := k) (by
            intro c hc
            rcases List.mem_cons.1 hc with e | hc
            · exact e ▸ hlt
            · exact hlt.trans (hk' c hc))] at this
          exact absurd (by simpa [readCells] using this) hkw
        · exact heq
        · have := h k'
          rw [readCells_below (m := (k, w) :: rest) (a := k') (by
            intro c hc
            rcases List.mem_cons.1 hc with e | hc
            · exact e ▸ hgt
            · exact hgt.trans (hk c hc))] at this
          exact absurd (by simpa [readCells] using this.symm) hkw'
      subst hkk
      have hww : w = w' := by simpa [readCells] using h k
      subst hww
      congr 1
      refine ih ⟨hr, fun c hc => hm.2 c (List.mem_cons_of_mem _ hc)⟩
        ⟨hr', fun c hc => hn.2 c (List.mem_cons_of_mem _ hc)⟩ fun a => ?_
      by_cases e : k = a
      · subst e
        rw [readCells_below hk, readCells_below hk']
      · simpa [readCells, e] using h a

/-! ### RAM regions -/

/-- Every byte of a region is a RAM address (R46). -/
theorem Region.addr_lt (r : Region) {i : Nat} (h : i < r.size) : r.base + i < 0x1040 := by
  cases r <;> simp only [Region.base, Region.size] at * <;> omega

/-- Two bytes of two regions are the same address only if they are the same byte (R46). -/
theorem Region.addr_inj {r q : Region} {i j : Nat} (hi : i < r.size) (hj : j < q.size) :
    r.base + i = q.base + j ↔ r = q ∧ i = j := by
  cases r <;> cases q <;> simp [Region.base, Region.size] at * <;> omega

@[simp] theorem ramByte_memWrite_same (cfg : Config) (s : State) (r : Region) (i : Nat) (v : Byte) :
    ramByte cfg (memWrite cfg s r i v) (r.base + i) = v := readCells_write_same

theorem ramByte_memWrite_other (cfg : Config) (s : State) (r : Region) (i : Nat) (v : Byte)
    (h : b ≠ r.base + i) : ramByte cfg (memWrite cfg s r i v) b = ramByte cfg s b :=
  readCells_write_other h

@[simp] theorem ramByte_writeTile_same (cfg : Config) (s : State) (L : LayerId) (p : Plane) (c : Nat)
    (v : Byte) : ramByte cfg (writeTile cfg s L p c v) ((tileRegion L p).base + c) = v := by
  simp [ramByte]

theorem ramByte_writeTile_other (cfg : Config) (s : State) (L : LayerId) (p : Plane) (c : Nat) (v : Byte)
    (h : b ≠ (tileRegion L p).base + c) : ramByte cfg (writeTile cfg s L p c v) b = ramByte cfg s b := by
  simp [ramByte, readCells_write_other h]

end Sys2Proof.Machine
end

