-- ==== Sys2Proof/Laws/PerInstr.lean ====
section
/-! SUPPORT. Laws stated instruction by instruction. Family `TableRowOf`: the word the encoder writes for a
transaction belongs to the row of the opcode table that stands for it. -/

namespace Sys2Proof.Laws.TableRowOf

/-- The encoded word matches the transaction's row of spec/opcode_table.json, and the row is in the table. -/
def Statement (i : Instr) : Prop :=
  encode i &&& i.row.mask = i.row.pattern ∧ i.row ∈ opcodeTable

theorem wrFgGfx (c : BitVec 10) (d : Byte) : Statement (.wrFgGfx c d) := by
  refine ⟨(and_mask_eq_iff _ 18 0 _ _ (by decide) (by simp [Instr.row]) (by simp [Instr.row])).2 ?_,
    by simp [opcodeTable, Instr.row]⟩
  have hc := c.isLt
  have hd := d.isLt
  rw [encode, encodeWrite_toNat, cellAddr_toNat]
  simp only [BitVec.toNat_ofNat]
  omega

theorem wrFgAttr (c : BitVec 10) (d : Byte) : Statement (.wrFgAttr c d) := by
  refine ⟨(and_mask_eq_iff _ 18 1 _ _ (by decide) (by simp [Instr.row]) (by simp [Instr.row])).2 ?_,
    by simp [opcodeTable, Instr.row]⟩
  have hc := c.isLt
  have hd := d.isLt
  rw [encode, encodeWrite_toNat, cellAddr_toNat]
  simp only [BitVec.toNat_ofNat]
  omega

theorem wrBgGfx (c : BitVec 10) (d : Byte) : Statement (.wrBgGfx c d) := by
  refine ⟨(and_mask_eq_iff _ 18 2 _ _ (by decide) (by simp [Instr.row]) (by simp [Instr.row])).2 ?_,
    by simp [opcodeTable, Instr.row]⟩
  have hc := c.isLt
  have hd := d.isLt
  rw [encode, encodeWrite_toNat, cellAddr_toNat]
  simp only [BitVec.toNat_ofNat]
  omega

theorem wrBgAttr (c : BitVec 10) (d : Byte) : Statement (.wrBgAttr c d) := by
  refine ⟨(and_mask_eq_iff _ 18 3 _ _ (by decide) (by simp [Instr.row]) (by simp [Instr.row])).2 ?_,
    by simp [opcodeTable, Instr.row]⟩
  have hc := c.isLt
  have hd := d.isLt
  rw [encode, encodeWrite_toNat, cellAddr_toNat]
  simp only [BitVec.toNat_ofNat]
  omega

theorem wrSprPri (k : BitVec 5) (d : Byte) : Statement (.wrSprPri k d) := by
  refine ⟨(and_mask_eq_iff _ 13 128 _ _ (by decide) (by simp [Instr.row]) (by simp [Instr.row])).2 ?_,
    by simp [opcodeTable, Instr.row]⟩
  have hk := k.isLt
  have hd := d.isLt
  rw [encode, encodeWrite_toNat, spriteAddr_toNat]
  simp only [BitVec.toNat_ofNat]
  omega

theorem wrSprSec (k : BitVec 5) (d : Byte) : Statement (.wrSprSec k d) := by
  refine ⟨(and_mask_eq_iff _ 13 129 _ _ (by decide) (by simp [Instr.row]) (by simp [Instr.row])).2 ?_,
    by simp [opcodeTable, Instr.row]⟩
  have hk := k.isLt
  have hd := d.isLt
  rw [encode, encodeWrite_toNat, spriteAddr_toNat]
  simp only [BitVec.toNat_ofNat]
  omega

theorem wrScroll (d : Byte) : Statement (.wrScroll d) := by
  refine ⟨(and_mask_eq_iff _ 8 4160 _ _ (by decide) (by simp [Instr.row]) (by simp [Instr.row])).2 ?_,
    by simp [opcodeTable, Instr.row]⟩
  have hd := d.isLt
  rw [encode, encodeWrite_toNat]
  simp only [BitVec.toNat_ofNat]
  omega

theorem wrCtrl (d : Byte) : Statement (.wrCtrl d) := by
  refine ⟨(and_mask_eq_iff _ 8 4161 _ _ (by decide) (by simp [Instr.row]) (by simp [Instr.row])).2 ?_,
    by simp [opcodeTable, Instr.row]⟩
  have hd := d.isLt
  rw [encode, encodeWrite_toNat]
  simp only [BitVec.toNat_ofNat]
  omega

theorem rdFgGfx (c : BitVec 10) : Statement (.rdFgGfx c) := by
  refine ⟨(and_mask_eq_iff _ 18 16 _ _ (by decide) (by simp [Instr.row]) (by simp [Instr.row])).2 ?_,
    by simp [opcodeTable, Instr.row]⟩
  have hc := c.isLt
  rw [encode, encodeRead_toNat, cellAddr_toNat]
  simp only [BitVec.toNat_ofNat]
  omega

theorem rdFgAttr (c : BitVec 10) : Statement (.rdFgAttr c) := by
  refine ⟨(and_mask_eq_iff _ 18 17 _ _ (by decide) (by simp [Instr.row]) (by simp [Instr.row])).2 ?_,
    by simp [opcodeTable, Instr.row]⟩
  have hc := c.isLt
  rw [encode, encodeRead_toNat, cellAddr_toNat]
  simp only [BitVec.toNat_ofNat]
  omega

theorem rdBgGfx (c : BitVec 10) : Statement (.rdBgGfx c) := by
  refine ⟨(and_mask_eq_iff _ 18 18 _ _ (by decide) (by simp [Instr.row]) (by simp [Instr.row])).2 ?_,
    by simp [opcodeTable, Instr.row]⟩
  have hc := c.isLt
  rw [encode, encodeRead_toNat, cellAddr_toNat]
  simp only [BitVec.toNat_ofNat]
  omega

theorem rdBgAttr (c : BitVec 10) : Statement (.rdBgAttr c) := by
  refine ⟨(and_mask_eq_iff _ 18 19 _ _ (by decide) (by simp [Instr.row]) (by simp [Instr.row])).2 ?_,
    by simp [opcodeTable, Instr.row]⟩
  have hc := c.isLt
  rw [encode, encodeRead_toNat, cellAddr_toNat]
  simp only [BitVec.toNat_ofNat]
  omega

theorem rdSprPri (k : BitVec 5) : Statement (.rdSprPri k) := by
  refine ⟨(and_mask_eq_iff _ 13 640 _ _ (by decide) (by simp [Instr.row]) (by simp [Instr.row])).2 ?_,
    by simp [opcodeTable, Instr.row]⟩
  have hk := k.isLt
  rw [encode, encodeRead_toNat, spriteAddr_toNat]
  simp only [BitVec.toNat_ofNat]
  omega

theorem rdSprSec (k : BitVec 5) : Statement (.rdSprSec k) := by
  refine ⟨(and_mask_eq_iff _ 13 641 _ _ (by decide) (by simp [Instr.row]) (by simp [Instr.row])).2 ?_,
    by simp [opcodeTable, Instr.row]⟩
  have hk := k.isLt
  rw [encode, encodeRead_toNat, spriteAddr_toNat]
  simp only [BitVec.toNat_ofNat]
  omega

theorem renderFrame : Statement (.renderFrame) := by
  exact ⟨by decide, by decide⟩

theorem paletteBuild : Statement (.paletteBuild) := by
  exact ⟨by decide, by decide⟩

theorem reset : Statement (.reset) := by
  exact ⟨by decide, by decide⟩

end Sys2Proof.Laws.TableRowOf
end

