-- ==== Sys2Proof/Laws/Tiles.lean ====
section
/-! SUPPORT. The laws of the tile layers: dirty bits, the refresh loop, the layer draw. -/

namespace Sys2Proof.Machine

theorem TileLayer.markDirty_getLsbD (l : TileLayer) (c : Nat) (hc : c < 1024) (b : Nat) :
    (l.markDirty c).dirty.getLsbD b = (l.dirty.getLsbD b || decide (b = c)) := by
  simp only [TileLayer.markDirty, BitVec.getLsbD_or, BitVec.getLsbD_twoPow]
  by_cases h : b = c
  · subst h; simp [hc]
  · simp [h, Ne.symm h]

theorem TileLayer.clearDirty_getLsbD (l : TileLayer) (c b : Nat) :
    (l.clearDirty c).dirty.getLsbD b = (l.dirty.getLsbD b && !decide (b = c)) := by
  simp only [TileLayer.clearDirty, BitVec.getLsbD_and, BitVec.getLsbD_not, BitVec.getLsbD_twoPow]
  by_cases hb : b < 1024
  · by_cases h : b = c
    · subst h; simp [hb]
    · simp [h, Ne.symm h, hb]
  · simp [BitVec.getLsbD_of_ge l.dirty b (by omega)]

/-- At power-up every cell is dirty (R31). -/
theorem TileLayer.powerUp_dirty (c : Nat) : TileLayer.powerUp.dirty.getLsbD c = decide (c < 1024) :=
  BitVec.getLsbD_allOnes ..

/-- At power-up every cell of the cache is EMPTY (R30). -/
theorem TileLayer.powerUp_cache (c : Fin 1024) : TileLayer.powerUp.cache[c] = none :=
  Vector.getElem_replicate c.isLt

section Refresh

variable (derive : Nat → TileInfo) (l : TileLayer)

/-- The refresh loop after its first `n` cells: cells below `n` are derived where they were dirty and are
clean; the others are as before; the counter has grown by the dirty cells below `n`. -/
theorem TileLayer.refresh_aux (n : Nat) (hn : n ≤ 1024) :
    let r := (List.range n).foldl (TileLayer.refreshCell derive) l
    (∀ c : Fin 1024, r.cache[c] =
        if c.val < n ∧ l.dirty.getLsbD c then some (derive c) else l.cache[c]) ∧
    (∀ c, r.dirty.getLsbD c = (l.dirty.getLsbD c && decide (n ≤ c))) ∧
    r.rederive = l.rederive + (List.range n).countP (fun c => l.dirty.getLsbD c) := by
  induction n with
  | zero => simp
  | succ n ih =>
    obtain ⟨h1, h2, h3⟩ := ih (by omega)
    rw [List.range_succ, List.foldl_append, List.foldl_cons, List.foldl_nil, List.countP_append]
    generalize (List.range n).foldl (TileLayer.refreshCell derive) l = r at h1 h2 h3
    have hd : r.dirty.getLsbD n = l.dirty.getLsbD n := by rw [h2]; simp
    unfold TileLayer.refreshCell
    by_cases hl : l.dirty.getLsbD n = true
    · rw [if_pos (hd.trans hl)]
      refine ⟨fun c => ?_, fun c => ?_, ?_⟩
      · have := h1 c
        simp only [Fin.getElem_fin] at this ⊢
        rw [Vector.getElem_setIfInBounds]
        by_cases e : n = c.val
        · subst e; simp [hl]
        · rw [if_neg e, this]
          have : c.val < n ↔ c.val < n + 1 := by omega
          simp only [this]
      · show (r.clearDirty n).dirty.getLsbD c = _
        rw [TileLayer.clearDirty_getLsbD, h2]
        by_cases e : c = n
        · subst e; simp
        · have : n ≤ c ↔ n + 1 ≤ c := by omega
          simp [e, this]
      · simp [h3, hl, Nat.add_assoc]
    · rw [if_neg (by rw [hd]; exact hl)]
      refine ⟨fun c => ?_, fun c => ?_, ?_⟩
      · rw [h1]
        by_cases e : c.val = n
        · simp [e, hl]
        · have : c.val < n ↔ c.val < n + 1 := by omega
          simp only [this]
      · rw [h2]
        by_cases e : c = n
        · subst e; simp [hl]
        · have : n ≤ c ↔ n + 1 ≤ c := by omega
          simp only [this]
      · simp [h3, hl]

/-- After a refresh, a cell that was dirty holds its derivation, the others what they held (R110). -/
theorem TileLayer.refresh_cache (c : Fin 1024) : (l.refresh derive).cache[c] =
    if l.dirty.getLsbD c then some (derive c) else l.cache[c] := by
  have := (TileLayer.refresh_aux derive l 1024 le_rfl).1 c
  unfold TileLayer.refresh
  simpa only [c.isLt, true_and] using this

/-- After a refresh no cell is dirty (R110). -/
theorem TileLayer.refresh_dirty : (l.refresh derive).dirty = 0 := by
  refine BitVec.eq_of_getLsbD_eq fun c hc => ?_
  have := (TileLayer.refresh_aux derive l 1024 le_rfl).2.1 c
  unfold TileLayer.refresh
  rw [this]
  have : ¬ 1024 ≤ c := by omega
  simp [this]

/-- A refresh counts one derivation for each cell that was dirty (R110, R111). -/
theorem TileLayer.refresh_rederive :
    (l.refresh derive).rederive = l.rederive + dirtyCount l.dirty := by
  unfold TileLayer.refresh
  exact (TileLayer.refresh_aux derive l 1024 le_rfl).2.2

/-- A refresh asks for the tile info of the 1024 cells alone. -/
theorem TileLayer.refresh_congr {derive derive' : Nat → TileInfo} {l : TileLayer}
    (h : ∀ c, c < 1024 → derive c = derive' c) : l.refresh derive = l.refresh derive' := by
  unfold TileLayer.refresh
  refine List.foldl_ext _ _ _ fun l c hc => ?_
  unfold TileLayer.refreshCell
  rw [h c (List.mem_range.1 hc)]

end Refresh

/-- After a refresh of a coherent layer every cell holds `TILEINFO` of the current RAM (R112). -/
theorem refresh_cache_eq {cfg : Config} {s : State} {L : LayerId} (h : Coherent cfg s L) (c : Fin 1024) :
    ((s.refresh cfg L).layer L).cache[c] = some (tileInfo cfg s L c) := by
  rw [State.refresh_layer, TileLayer.refresh_cache]
  split
  · rfl
  · rename_i hd; exact h c (by simpa using hd)

/-- A layer-image coordinate names a cell of the grid (R98, R114). -/
theorem cellAt_lt (flip : Bool) (xs : Nat) (sx sy : Fin 256) : cellAt (layerCoord flip xs sx sy) < 1024 := by
  simp only [cellAt, layerCoord]; omega

@[simp] theorem memRead_refresh (cfg : Config) (s : State) (L : LayerId) (r : Region) (i : Nat) :
    memRead cfg (s.refresh cfg L) r i = memRead cfg s r i := by simp [memRead]

@[simp] theorem memRead_drawLayer (cfg : Config) (s : State) (L : LayerId) (r : Region) (i : Nat) :
    memRead cfg (drawLayer cfg s L) r i = memRead cfg s r i := by simp [memRead]

@[simp] theorem memRead_drawBank (cfg : Config) (s : State) (b : Bank) (r : Region) (i : Nat) :
    memRead cfg (drawBank cfg s b) r i = memRead cfg s r i := rfl

@[simp] theorem memRead_setPhase (cfg : Config) (s : State) (p : Phase) (r : Region) (i : Nat) :
    memRead cfg (s.setPhase p) r i = memRead cfg s r i := rfl

/-- Tile info reads the RAM alone. -/
theorem tileInfo_congr {cfg : Config} {s t : State} (h : ∀ a, ramByte cfg s a = ramByte cfg t a)
    (L : LayerId) (c : Nat) : tileInfo cfg s L c = tileInfo cfg t L c := by
  simp only [tileInfo, memRead, h]

/-- Coherence depends on the RAM and on the layer's cache bookkeeping alone. -/
theorem Coherent.congr {cfg : Config} {s t : State} {L : LayerId} (h : Coherent cfg s L)
    (hm : ∀ a, ramByte cfg t a = ramByte cfg s a) (hl : t.layer L = s.layer L) : Coherent cfg t L := by
  intro c hc
  rw [hl] at hc ⊢
  rw [tileInfo_congr hm]
  exact h c hc

/-- A refresh of a coherent layer leaves it coherent (R112). -/
theorem refresh_coherent {cfg : Config} {s : State} {L : LayerId} (h : Coherent cfg s L) :
    Coherent cfg (s.refresh cfg L) L := by
  intro c _
  rw [refresh_cache_eq h, tileInfo_congr (s := s) (t := s.refresh cfg L) (fun a => by simp)]

/-- A refresh leaves the other layer as coherent as it was. -/
theorem refresh_coherent_other {cfg : Config} {s : State} {L M : LayerId} (hLM : M ≠ L)
    (h : Coherent cfg s M) : Coherent cfg (s.refresh cfg L) M :=
  h.congr (fun a => by simp) (State.refresh_layer_other cfg s hLM)

/-- A layer draw leaves its layer coherent: no cell is dirty and each holds its tile info (R112). -/
theorem drawLayer_coherent {cfg : Config} {s : State} {L : LayerId} (h : Coherent cfg s L) :
    Coherent cfg (drawLayer cfg s L) L := by
  intro c _
  have hm : tileInfo cfg (drawLayer cfg s L) L c = tileInfo cfg s L c :=
    tileInfo_congr (fun a => by simp) L c
  rw [hm, drawLayer_layer, ← State.refresh_layer]
  exact refresh_cache_eq h c

theorem drawLayer_coherent_other {cfg : Config} {s : State} {L M : LayerId} (hLM : M ≠ L)
    (h : Coherent cfg s M) : Coherent cfg (drawLayer cfg s L) M :=
  h.congr (fun a => by simp) (drawLayer_layer_other cfg s hLM)

theorem layerScroll_refresh (cfg : Config) (s : State) (L M : LayerId) :
    layerScroll (s.refresh cfg L) M = layerScroll s M := by cases M <;> simp [layerScroll]

/-- What a refreshed layer puts on a pixel is what the RAM says (R112, R117). -/
theorem layerInk_refresh {cfg : Config} {s : State} {L : LayerId} (h : Coherent cfg s L) (x y : Fin 256) :
    layerInk cfg (s.refresh cfg L) L x y =
      if InsidePixel s.clip x y then layerSource cfg s L x y else none := by
  unfold layerInk layerSource
  simp only [State.refresh_clip, State.refresh_flip, layerScroll_refresh]
  have hc := cellAt_lt s.flip (layerScroll s L) x y
  have he := refresh_cache_eq h ⟨_, hc⟩
  simp only [Fin.getElem_fin] at he
  rw [Vector.getElem?_eq_getElem hc, he]

/-- Everything a layer draw does to the framebuffer (R117), for a coherent cache: inside the clip, the opaque
pixels of the layer as the RAM gives them; every other pixel stays. -/
theorem drawLayer_get {cfg : Config} {s : State} {L : LayerId} (h : Coherent cfg s L) (x y : Fin 256) :
    (drawLayer cfg s L).fb.get x y =
      if InsidePixel s.clip x y then (layerSource cfg s L x y).getD (s.fb.get x y) else s.fb.get x y := by
  rw [drawLayer_fb, Frame.get_paint, layerInk_refresh h]
  split <;> simp

/-- The framebuffer a layer draw leaves depends on these pieces of the state alone. -/
theorem drawLayer_fb_congr {cfg : Config} {s t : State} {L : LayerId}
    (hm : ∀ c, c < 1024 → tileInfo cfg s L c = tileInfo cfg t L c) (hf : s.flip = t.flip) (hs : s.scroll = t.scroll)
    (hc : s.clip = t.clip) (hl : s.layer L = t.layer L) (hb : s.fb = t.fb) :
    (drawLayer cfg s L).fb = (drawLayer cfg t L).fb := by
  have hr : (s.refresh cfg L).layer L = (t.refresh cfg L).layer L := by
    rw [State.refresh_layer, State.refresh_layer, hl, TileLayer.refresh_congr hm]
  have hx : layerScroll s L = layerScroll t L := by cases L <;> simp [layerScroll, hs]
  have hi : layerInk cfg (s.refresh cfg L) L = layerInk cfg (t.refresh cfg L) L := by
    funext x y
    simp only [layerInk, layerScroll_refresh, hx, State.refresh_flip, hf, State.refresh_clip, hc, hr]
  rw [drawLayer_fb, drawLayer_fb, hi, hb]

/-- The background has no transparent pixel (R116). -/
theorem layerSource_bg (cfg : Config) (s : State) (x y : Fin 256) :
    layerSource cfg s .bg x y = some (backgroundPen cfg s x y) := by
  simp [layerSource, tileInk, backgroundPen]

end Sys2Proof.Machine
end

