-- ==== Sys2Proof/Laws/Sprites.lean ====
section
/-! SUPPORT. The laws of the sprite banks: what a bank draw does to each pixel. -/

namespace Sys2Proof.Machine

/-- A slot reads the RAM and `FLIP` alone. -/
theorem spriteAt_congr {cfg : Config} {s t : State} (hm : ∀ a, ramByte cfg s a = ramByte cfg t a)
    (hf : s.flip = t.flip) (b : Bank) (slot : Nat) : spriteAt cfg s b slot = spriteAt cfg t b slot := by
  simp only [spriteAt, memRead, hm, hf]

/-- The framebuffer a bank draw leaves depends on these pieces of the state alone. -/
theorem drawBank_fb_congr {cfg : Config} {s t : State} {b : Bank}
    (hm : ∀ slot, slot < 8 → spriteAt cfg s b slot = spriteAt cfg t b slot) (hc : s.clip = t.clip)
    (hb : s.fb = t.fb) : (drawBank cfg s b).fb = (drawBank cfg t b).fb := by
  simp only [drawBank, hc, hb]
  refine List.foldl_ext _ _ _ fun f slot h => ?_
  rw [hm slot (by simp at h; omega)]

/-- Blits of several sprites one after another: the last one in the list that is opaque at a pixel wins. -/
theorem foldl_blit_get (cfg : Config) (c : Clip) (sprite : Nat → Sprite) (slots : List Nat) (f : Frame)
    (x y : Fin 256) :
    (slots.foldl (fun f slot => blit cfg c (sprite slot) f) f).get x y =
      if InsidePixel c x y then
        (slots.reverse.findSome? (fun slot => spriteSource cfg (sprite slot) x.val y.val)).getD (f.get x y)
      else f.get x y := by
  induction slots generalizing f with
  | nil => simp
  | cons slot rest ih =>
    rw [List.foldl_cons, ih, List.reverse_cons, List.findSome?_append, blit_get]
    split
    · cases List.findSome? (fun slot => spriteSource cfg (sprite slot) x.val y.val) rest.reverse <;> simp
    · rfl

/-- Everything a bank draw does to the framebuffer (R139, R140): inside the clip, the pen of the lowest slot
that is opaque there; every other pixel stays. -/
theorem drawBank_get (cfg : Config) (s : State) (b : Bank) (x y : Fin 256) :
    (drawBank cfg s b).fb.get x y =
      if InsidePixel s.clip x y then (bankSource cfg s b x y).getD (s.fb.get x y) else s.fb.get x y := by
  simp only [drawBank, foldl_blit_get]
  rfl

end Sys2Proof.Machine
end

