-- ==== Sys2Proof/Laws/Render.lean ====
section
/-! SUPPORT. The laws of the render: every field it leaves, and what it does to each layer's bookkeeping. -/

namespace Sys2Proof.Machine

variable (cfg : Config) (s : State)

/-- A render under priority code 0 (R160). -/
theorem renderFrame_zero (h : s.prio = 0#2) :
    renderFrame cfg s =
      ((((drawBank cfg ((drawBank cfg ((drawLayer cfg ((drawLayer cfg (s.setPhase .bg) .bg).setPhase .fgEarly)
        .fg).setPhase .sprFirst) .sec).setPhase .sprSecond) .pri).setPhase .done).setPhase .idle).respond
        (.status .success)) := by
  simp [renderFrame, h, firstBank, secondBank]

/-- A render under any other priority code (R162). -/
theorem renderFrame_ne_zero (h : s.prio ≠ 0#2) :
    renderFrame cfg s =
      ((((drawLayer cfg ((drawBank cfg ((drawBank cfg ((drawLayer cfg (s.setPhase .bg) .bg).setPhase .sprFirst)
        (firstBank s.prio)).setPhase .sprSecond) (secondBank s.prio)).setPhase .fgLate) .fg).setPhase .done).setPhase
        .idle).respond (.status .success)) := by
  simp [renderFrame, h]

@[simp] theorem renderFrame_mem : (renderFrame cfg s).mem = s.mem := by
  by_cases h : s.prio = 0#2
  · simp [renderFrame_zero cfg s h]
  · simp [renderFrame_ne_zero cfg s h]

@[simp] theorem renderFrame_scroll : (renderFrame cfg s).scroll = s.scroll := by
  by_cases h : s.prio = 0#2
  · simp [renderFrame_zero cfg s h]
  · simp [renderFrame_ne_zero cfg s h]

@[simp] theorem renderFrame_latch : (renderFrame cfg s).latch = s.latch := by
  by_cases h : s.prio = 0#2
  · simp [renderFrame_zero cfg s h]
  · simp [renderFrame_ne_zero cfg s h]

@[simp] theorem renderFrame_palette : (renderFrame cfg s).palette = s.palette := by
  by_cases h : s.prio = 0#2
  · simp [renderFrame_zero cfg s h]
  · simp [renderFrame_ne_zero cfg s h]

@[simp] theorem renderFrame_port : (renderFrame cfg s).port = s.port := by
  by_cases h : s.prio = 0#2
  · simp [renderFrame_zero cfg s h]
  · simp [renderFrame_ne_zero cfg s h]

@[simp] theorem renderFrame_clip : (renderFrame cfg s).clip = s.clip := by
  by_cases h : s.prio = 0#2
  · simp [renderFrame_zero cfg s h]
  · simp [renderFrame_ne_zero cfg s h]

@[simp] theorem renderFrame_draws : (renderFrame cfg s).draws = s.draws := by
  by_cases h : s.prio = 0#2
  · simp [renderFrame_zero cfg s h]
  · simp [renderFrame_ne_zero cfg s h]

@[simp] theorem renderFrame_phase : (renderFrame cfg s).phase = .idle := rfl

@[simp] theorem renderFrame_response : (renderFrame cfg s).response = .status .success := rfl

@[simp] theorem renderFrame_flip : (renderFrame cfg s).flip = s.flip := by simp [State.flip]

@[simp] theorem renderFrame_prio : (renderFrame cfg s).prio = s.prio := by simp [State.prio]

@[simp] theorem renderFrame_ramByte (a : Nat) : ramByte cfg (renderFrame cfg s) a = ramByte cfg s a := by
  simp [ramByte]

/-- A render refreshes each layer once, from the RAM as it stands (R110, R157). -/
theorem renderFrame_layer (L : LayerId) :
    (renderFrame cfg s).layer L = (s.layer L).refresh (tileInfo cfg s L) := by
  have ti {t u : State} (h : ∀ a, ramByte cfg t a = ramByte cfg u a) : tileInfo cfg t L = tileInfo cfg u L :=
    funext fun c => tileInfo_congr h L c
  have key {t : State} (h : ∀ a, ramByte cfg t a = ramByte cfg s a) :
      (s.layer L).refresh (tileInfo cfg t L) = (s.layer L).refresh (tileInfo cfg s L) := by rw [ti h]
  by_cases hp : s.prio = 0#2
  · rw [renderFrame_zero cfg s hp]
    simp only [State.respond_layer, State.setPhase_layer, drawBank_layer]
    cases L
    · rw [drawLayer_layer, State.setPhase_layer, drawLayer_layer_other _ _ (by decide), State.setPhase_layer]
      exact key fun a => by simp
    · rw [drawLayer_layer_other _ _ (by decide), State.setPhase_layer, drawLayer_layer, State.setPhase_layer]
      exact key fun a => by simp
  · rw [renderFrame_ne_zero cfg s hp]
    simp only [State.respond_layer, State.setPhase_layer]
    cases L
    · rw [drawLayer_layer, State.setPhase_layer, drawBank_layer, State.setPhase_layer, drawBank_layer,
        State.setPhase_layer, drawLayer_layer_other _ _ (by decide), State.setPhase_layer]
      exact key fun a => by simp
    · rw [drawLayer_layer_other _ _ (by decide), State.setPhase_layer, drawBank_layer, State.setPhase_layer,
        drawBank_layer, State.setPhase_layer, drawLayer_layer, State.setPhase_layer]
      exact key fun a => by simp

end Sys2Proof.Machine
end

