-- ==== Sys2Proof/Laws/Step.lean ====
section
/-! SUPPORT. What one step can do. -/

namespace Sys2Proof.Machine

/-- A step that answers a next state was idle, or performed the first waiting transaction: a row of the
table, an unmapped WRITE, or a READ with no effect (R77). -/
theorem step_cases {s t : State} (h : step s = .next t) :
    (s.port = [] ∧ t = s) ∨
    ∃ r rest, s.port = r :: rest ∧
      ((∃ i, decode r.word = .row i ∧ exec i (s.accept r rest) = .next t) ∨
       (∃ a d, decode r.word = .unmappedWrite a d ∧ t = s.accept r rest) ∨
       (∃ a, decode r.word = .noEffectRead a ∧ t = (s.accept r rest).respondAny Config.device)) := by
  unfold step at h
  split at h
  · rename_i hp; cases h; exact .inl ⟨hp, rfl⟩
  · rename_i r rest hp
    refine .inr ⟨r, rest, hp, ?_⟩
    unfold perform at h
    split at h <;> rename_i hd
    · exact .inl ⟨_, hd, h⟩
    · cases h; exact .inr (.inl ⟨_, _, hd, rfl⟩)
    · cases h; exact .inr (.inr ⟨_, hd, rfl⟩)
    · cases h

/-- A step with a transaction waiting performs its decoded word on the accepted state. -/
theorem step_cons {s : State} {r : Request} {rest : List Request} (h : s.port = r :: rest) :
    step s = perform (decode r.word) (s.accept r rest) := by
  unfold step; rw [h]

end Sys2Proof.Machine
end

