-- ==== Sys2Proof/Tests/Slice0.lean ====
section
/-! SUPPORT. The model's own tests: vectors of spec/95_test_vectors.md, ill-formed terms that the checks
refuse, and a witness for the hypotheses of every obligation that has some. -/

namespace Sys2Proof.Tests

open Sys2Proof.Machine

/-! ### The spec's fixture FIX -/

/-- FIX's pen table, PROM[0x00..0x0F]. -/
def fixPens : List Byte :=
  [0x00, 0x07, 0x38, 0xC0, 0xFF, 0x55, 0xAA, 0x5A, 0x01, 0x02, 0x04, 0x08, 0x10, 0x20, 0x40, 0x80]

/-- FIX (Variant B, N = 256). -/
def fixParams : Params :=
  { variant := .b
    paletteEntries := 256
    prom := fixPens ++ List.replicate 16 0x3F ++ (List.range 256).map (fun i => BitVec.ofNat 8 (i % 16))
    tileBpp := 4
    spriteBpp := 4
    spriteW := 16
    spriteH := 16
    tileGfxFg := fun code u _ => if u.toNat < 4 then BitVec.ofNat 4 code.toNat else 0
    tileGfxBg := fun code u _ => if u.toNat < 4 then BitVec.ofNat 4 code.toNat else 0
    spriteGfx := fun code _ _ => BitVec.ofNat 4 code.toNat }

/-- FIX as a configuration; every power-up draw is 0 here. -/
def fixB : Config :=
  { fixParams with wf := by simp [Params.wellFormed, Params.pensFit, fixParams, fixPens] }

/-- FIX with Variant A. -/
def fixA : Config :=
  { fixParams with
    variant := .a
    wf := by simp [Params.wellFormed, Params.pensFit, fixParams, fixPens] }

/-- The comparison of L2.1: N = 0x110, PROM_LEN = 0x130, PROM[0x25] = 0xF3 and PROM[0x125] = 0x37. -/
def cmpParams (v : Variant) : Params :=
  { fixParams with
    variant := v
    paletteEntries := 0x110
    prom := fixPens ++ List.replicate 16 0x3F ++
      (List.range 0x110).map (fun i => if i = 0x005 then 0xF3 else if i = 0x105 then 0x37 else 0) }

def cmp (v : Variant) : Config :=
  { cmpParams v with
    wf := by simp [Params.wellFormed, Params.pensFit, cmpParams, fixParams, fixPens, -List.reduceReplicate] }

/-! ### Ill-formed terms are refused -/

theorem test_wf_tile_line :
    AsmLine.wellFormed (.wrTile .fg .gfx 1023 255) = true ∧
    AsmLine.wellFormed (.wrTile .fg .gfx 1024 255) = false ∧
    AsmLine.wellFormed (.wrTile .bg .attr 0 256) = false ∧
    AsmLine.wellFormed (.rdTile .fg .gfx 1024) = false ∧
    AsmLine.wellFormed (.tile .fg 1024 0 0) = false ∧
    AsmLine.wellFormed (.tile .fg 0 256 0) = false ∧
    AsmLine.wellFormed (.tile .fg 0 0 256) = false := by decide

theorem test_wf_sprite_line :
    AsmLine.wellFormed (.wrSprite .pri 7 3 255) = true ∧
    AsmLine.wellFormed (.wrSprite .pri 8 0 0) = false ∧
    AsmLine.wellFormed (.wrSprite .sec 0 4 0) = false ∧
    AsmLine.wellFormed (.wrSprite .sec 0 0 256) = false ∧
    AsmLine.wellFormed (.rdSprite .pri 8 0) = false ∧
    AsmLine.wellFormed (.rdSprite .pri 0 4) = false ∧
    AsmLine.wellFormed (.spriteZero .pri 8) = false := by decide

theorem test_wf_sprite_record :
    AsmLine.wellFormed (.sprite .pri 7 255 255 255 255) = true ∧
    AsmLine.wellFormed (.sprite .pri 8 0 0 0 0) = false ∧
    AsmLine.wellFormed (.sprite .pri 0 256 0 0 0) = false ∧
    AsmLine.wellFormed (.sprite .pri 0 0 256 0 0) = false ∧
    AsmLine.wellFormed (.sprite .pri 0 0 0 256 0) = false ∧
    AsmLine.wellFormed (.sprite .pri 0 0 0 0 256) = false := by decide

theorem test_wf_register_line :
    AsmLine.wellFormed (.wrScroll 256) = false ∧ AsmLine.wellFormed (.wrCtrl 256) = false ∧
    AsmLine.wellFormed (.wr 0x2000 0) = false ∧ AsmLine.wellFormed (.wr 0x1FFF 256) = false ∧
    AsmLine.wellFormed (.rd 0x2000) = false ∧ AsmLine.wellFormed (.ctrl 2 0 0 0) = false ∧
    AsmLine.wellFormed (.ctrl 0 2 0 0) = false ∧ AsmLine.wellFormed (.ctrl 0 0 4 0) = false ∧
    AsmLine.wellFormed (.ctrl 0 0 0 2) = false ∧ AsmLine.wellFormed (.ctrl 1 1 3 1) = true ∧
    AsmLine.words (.wrScroll 256) = none := by decide

theorem test_wf_clip :
    clipWellFormed 0 255 0 255 = true ∧ clipWellFormed 1 0 0 0 = false ∧ clipWellFormed 0 256 0 0 = false ∧
    clipWellFormed 0 0 1 0 = false ∧ clipWellFormed 0 0 0 256 = false ∧
    AsmLine.wellFormed (.renderFrameIn 1 0 0 0) = false ∧
    Clip.ofNats? 1 0 0 0 = none ∧ Clip.ofNats? 0 256 0 0 = none ∧ Clip.ofNats? 0 0 1 0 = none ∧
    Clip.ofNats? 0 0 0 256 = none ∧ Clip.ofNats? 0 255 0 255 = some Clip.full := by decide

/-- R11 and R13: a short PROM, and a pen that reaches N, for each of the three colour bases. -/
theorem test_wf_config :
    Params.wellFormed { prom := List.replicate 48 0 } = true ∧
    Params.wellFormed { prom := List.replicate 47 0 } = false ∧
    Params.wellFormed { fgColorBase := 1 } = false ∧
    Params.wellFormed { bgColorBase := 1 } = false ∧
    Params.wellFormed { spriteColorBase := 1 } = false := by decide

/-! ### Decoding: words written out bit by bit (R65 to R71), as class, bit 21, address, data -/

theorem test_decode_tile_write_words :
    decode 0b00_0_000_0000100001_00010010#24 = .row (.wrFgGfx 33 0x12) ∧
    decode 0b00_0_001_0000100001_10110101#24 = .row (.wrFgAttr 33 0xB5) ∧
    decode 0b00_0_010_0000000000_11111111#24 = .row (.wrBgGfx 0 0xFF) ∧
    decode 0b00_0_011_1111111111_00010000#24 = .row (.wrBgAttr 1023 0x10) := by decide

theorem test_decode_sprite_and_register_write_words :
    decode 0b00_0_10000000_01011_11111000#24 = .row (.wrSprPri 11 0xF8) ∧
    decode 0b00_0_10000001_11111_01011100#24 = .row (.wrSprSec 31 0x5C) ∧
    decode 0b00_0_1000001000000_00010000#24 = .row (.wrScroll 0x10) ∧
    decode 0b00_0_1000001000001_00110010#24 = .row (.wrCtrl 0x32) := by decide

theorem test_decode_read_words :
    decode 0b01_0_000_0000000101_00000000#24 = .row (.rdFgGfx 5) ∧
    decode 0b01_0_001_1000000001_00000000#24 = .row (.rdFgAttr 513) ∧
    decode 0b01_0_010_0000000010_00000000#24 = .row (.rdBgGfx 2) ∧
    decode 0b01_0_011_1111111111_00000000#24 = .row (.rdBgAttr 1023) ∧
    decode 0b01_0_10000000_10001_00000000#24 = .row (.rdSprPri 17) ∧
    decode 0b01_0_10000001_11111_00000000#24 = .row (.rdSprSec 31) ∧
    decode 0b01_0_000_0000000101_10100101#24 = .row (.rdFgGfx 5) := by decide

theorem test_decode_strobe_words :
    decode 0b10_00000000000000000000_00#24 = .row .renderFrame ∧
    decode 0b10_00000000000000000000_01#24 = .row .paletteBuild ∧
    decode 0b10_00000000000000000000_10#24 = .row .reset := by decide

/-- L2.2: the words with no row, and the refused words. -/
theorem test_decode_other_words :
    decode 0x104200#24 = .unmappedWrite 0x1042 0 ∧ decode 0x1FFF00#24 = .unmappedWrite 0x1FFF 0 ∧
    decode 0x504000#24 = .noEffectRead 0x1040 ∧ decode 0x504100#24 = .noEffectRead 0x1041 ∧
    decode 0x5FFF00#24 = .noEffectRead 0x1FFF ∧
    decode 0x800003#24 = .refused .strobeCode ∧ decode 0x800004#24 = .refused .strobeBits ∧
    decode 0x200000#24 = .refused .bit21 ∧ decode 0x600000#24 = .refused .bit21 ∧
    decode 0xC00000#24 = .refused .classEleven ∧ decode 0xFFFFFF#24 = .refused .classEleven := by decide

/-- The assembler's words in L3's programs 1, 3, 4 and 5. -/
theorem test_assembler_words :
    AsmLine.words (.tile .bg 32 0x01 0x02) = some [0x082001, 0x0C2002] ∧
    AsmLine.words (.tile .fg 34 0x09 0x01) = some [0x002209, 0x042201] ∧
    AsmLine.words (.sprite .sec 0 0xF0 0x1C 0x05 0x08) = some [0x1020F0, 0x10211C, 0x102205, 0x102308] ∧
    AsmLine.words (.wrSprite .sec 7 3 0x5C) = some [0x103F5C] ∧
    AsmLine.words (.rdSprite .sec 7 3) = some [0x503F00] ∧
    AsmLine.words (.rdTile .fg .gfx 5) = some [0x400500] ∧
    AsmLine.words (.ctrl 0 1 3 0) = some [0x104132] ∧
    AsmLine.words (.rd 0x1041) = some [0x504100] ∧ AsmLine.words .nop = some [0x1FFF00] := by decide

/-- The kernel evaluates the reading of a table word, whatever stands above its `nbits` bits. -/
theorem test_table_word :
    decodeTableWord 24 0x103F5C = some (.wrSprSec 31 0x5C) ∧ decodeTableWord 24 0x800002 = some .reset ∧
    decodeTableWord 24 0xC00000 = none ∧ decodeTableWord 8 0xFF34 = some (.wrFgGfx 0 0x34) := by decide

/-! ### Palette decoder (L2.1) -/

theorem test_colour_decode :
    [0x00#8, 0x01, 0x02, 0x04, 0x07, 0x08, 0x38, 0x40, 0x80, 0xC0, 0xFF, 0x55, 0xAA, 0x5A, 0xF3].map rgb =
      [⟨0, 0, 0⟩, ⟨0x21, 0, 0⟩, ⟨0x47, 0, 0⟩, ⟨0x97, 0, 0⟩, ⟨0xFF, 0, 0⟩, ⟨0, 0x21, 0⟩, ⟨0, 0xFF, 0⟩,
        ⟨0, 0, 0x47⟩, ⟨0, 0, 0x97⟩, ⟨0, 0, 0xDE⟩, ⟨0xFF, 0xFF, 0xDE⟩, ⟨0xB8, 0x47, 0x47⟩,
        ⟨0x47, 0xB8, 0x97⟩, ⟨0x47, 0x68, 0x47⟩, ⟨0x68, 0xDE, 0xDE⟩] := by decide

theorem test_pen_index_of_each_variant :
    penIndex (cmp .a) 0x005 = 0x03 ∧ paletteEntry (cmp .a) 0x005 = ⟨0x00, 0x00, 0xDE⟩ ∧
    penIndex (cmp .a) 0x105 = 0x17 ∧ paletteEntry (cmp .a) 0x105 = ⟨0xFF, 0xFF, 0x00⟩ ∧
    penIndex (cmp .b) 0x005 = 0x03 ∧ paletteEntry (cmp .b) 0x005 = ⟨0x00, 0x00, 0xDE⟩ ∧
    penIndex (cmp .b) 0x105 = 0x07 ∧ paletteEntry (cmp .b) 0x105 = ⟨0x47, 0x68, 0x47⟩ := by decide +kernel

/-- The palette under FIX that PALETTE_BUILD writes. -/
theorem test_palette_build :
    let p := ({ State.powerUp fixB with palette := [] }.rebuildPalette fixB).palette
    p[0x20]? = some ⟨0x00, 0x00, 0x00⟩ ∧ p[0x01]? = some ⟨0xFF, 0x00, 0x00⟩ ∧
    p[0x19]? = some ⟨0x47, 0x00, 0x00⟩ ∧ p[0x23]? = some ⟨0x00, 0x00, 0xDE⟩ ∧
    p[0x35]? = some ⟨0xB8, 0x47, 0x47⟩ ∧ p[0x46]? = some ⟨0x47, 0xB8, 0x97⟩ ∧
    p[0x57]? = some ⟨0x47, 0x68, 0x47⟩ := by decide +kernel

/-! ### Tile layers (L2.3) -/

theorem test_tile_info :
    tileInfoOf 0x34 0xB5 = ⟨0x534, 5, true⟩ ∧ tileInfoOf 0xFF 0xFF = ⟨0x7FF, 15, true⟩ ∧
    tileInfoOf 0x00 0xE0 = ⟨0x700, 0, false⟩ ∧ tileInfoOf 0x12 0x00 = ⟨0x012, 0, false⟩ ∧
    tileInfoOf 0x05 0x03 = ⟨0x005, 3, false⟩ ∧ tileInfoOf 0x00 0x10 = ⟨0x000, 0, true⟩ := by decide

/-- L2.3's coordinates; the scroll of a background row is 0 (`layerScroll`). -/
theorem test_layer_coordinates :
    layerCoord false 0 0 0 = (0, 8) ∧ cellAt (0, 8) = 32 ∧
    layerCoord false 0x10 0 0 = (16, 8) ∧ cellAt (16, 8) = 34 ∧
    layerCoord false 0xF8 8 0 = (0, 8) ∧ layerCoord false 0 0 248 = (0, 0) ∧
    layerCoord true 0x10 255 255 = (16, 8) ∧ layerCoord true 0 251 255 = (4, 8) := by decide

/-- FIX: pen 0x35 at u = 2 of a foreground cell, nothing at u = 5; with flip-x u = 5 reads u = 2; the
background is opaque at u = 5. -/
theorem test_tile_pixels :
    tileInk fixB .fg ⟨0x005, 3, false⟩ (2, 8) = some 0x35 ∧ tileInk fixB .fg ⟨0x005, 3, false⟩ (5, 8) = none ∧
    tileInk fixB .fg ⟨0x005, 3, true⟩ (5, 8) = some 0x35 ∧
    tileInk fixB .bg ⟨0x001, 2, false⟩ (5, 8) = some 0x20 := by decide

/-- A state of FIX with no cell dirty. -/
def clean (m : List Host.Cell) : State :=
  { State.powerUp fixB with
    mem := m
    fg := { TileLayer.powerUp with dirty := 0, rederive := 1024 }
    bg := { TileLayer.powerUp with dirty := 0, rederive := 1024 } }

/-- L2.3: a tile write stores its byte and dirties its cell, and no other. -/
theorem test_write_tile :
    let t := writeTile fixB (clean []) .fg .gfx 5 0x12
    t.mem = [(5, 0x12)] ∧ memRead fixB t .fgGfx 5 = 0x12 ∧ t.fg.dirty = BitVec.twoPow 1024 5 ∧ t.bg.dirty = 0 := by
  decide +kernel

/-- L2.3: a write of the byte already held still dirties the cell; the memory stays canonical. -/
theorem test_write_tile_same_value :
    let t := writeTile fixB (clean [(0xFFF, 0x10)]) .bg .attr 1023 0x10
    t.mem = [(0xFFF, 0x10)] ∧ t.bg.dirty = BitVec.twoPow 1024 1023 ∧ t.fg.dirty = 0 ∧
    (writeTile fixB t .bg .attr 1023 0).mem = [] := by decide +kernel

/-- L2.3: two writes to cell 5 cost one derivation at the next refresh, of cell 5 alone. -/
theorem test_refresh_of_one_cell :
    let t := writeTile fixB (writeTile fixB (clean []) .fg .gfx 5 0x12) .fg .attr 5 0x00
    let u := (t.refresh fixB .fg).layer .fg
    u.rederive = 1025 ∧ u.cache[(5 : Fin 1024)] = some ⟨0x012, 0, false⟩ ∧ u.cache[(6 : Fin 1024)] = none ∧
    (t.refresh fixB .fg).bg.rederive = 1024 := by
  simp only [State.refresh_layer, TileLayer.refresh_rederive, TileLayer.refresh_cache]
  decide +kernel

/-! ### Sprite banks (L2.4) -/

theorem test_sprite_decode :
    spriteOf .pri false 0x40 0x0D 0xA7 0xF8 = ⟨-8, 176, 0x143, 7, true, false⟩ ∧
    spriteOf .sec false 0x40 0x0D 0xA7 0xF8 = ⟨-8, 176, 0x343, 7, true, false⟩ ∧
    spriteOf .pri true 0x40 0x0D 0xA7 0xF8 = ⟨247, 63, 0x143, 7, false, true⟩ ∧
    spriteOf .pri false 230 0x0C 0x02 10 = ⟨10, 10, 0x003, 2, false, false⟩ ∧
    spriteOf .pri true 230 0x0C 0x02 10 = ⟨229, 229, 0x003, 2, true, true⟩ ∧
    spriteOf .pri false 0xFF 0xFF 0xFF 0xFF = ⟨-1, -15, 0x1FF, 15, true, false⟩ ∧
    spriteOf .sec true 0xFF 0xFF 0xFF 0xFF = ⟨240, 254, 0x3FF, 15, false, true⟩ ∧
    spriteOf .pri false 0 0 0 0 = ⟨0, 240, 0, 0, false, false⟩ ∧
    spriteOf .sec true 0 0 0 0 = ⟨239, -1, 0x200, 0, true, true⟩ ∧
    spriteOf .pri false 0x10 0x02 0x10 0xF7 = ⟨247, 224, 0, 0, false, false⟩ := by decide

/-- L2.4: a slot at x = −8 writes columns 0..7 and drops the others; it does not wrap to 248..255. -/
theorem test_blit_clips_at_the_left_edge :
    let f := blit fixB Clip.full (spriteOf .pri false 0x40 0x0D 0xA7 0xF8) Frame.blank
    f.get 0 176 = 0x73 ∧ f.get 7 191 = 0x73 ∧ f.get 8 176 = 0 ∧ f.get 248 176 = 0 ∧ f.get 0 192 = 0 := by
  intro f
  simp only [f, blit_get]
  decide +kernel

/-- L2.4: where slots 0 and 3 of a bank are both opaque, slot 0 is left in the framebuffer. -/
theorem test_bank_draws_slot_zero_last :
    let s := clean [(0x1000, 0xF0), (0x1001, 0x18), (0x1002, 0x04), (0x100C, 0xF0), (0x100D, 0x1C), (0x100E, 0x05)]
    (drawBank fixB s .pri).fb.get 3 3 = 0x46 := by
  intro s
  rw [drawBank_get]
  decide +kernel

/-- A sprite write touches its own byte and no dirty bit. -/
theorem test_write_sprite :
    let t := memWrite fixB (clean []) (spriteRegion .sec) 31 0x5C
    t.mem = [(0x103F, 0x5C)] ∧ memRead fixB t .sprSec 31 = 0x5C ∧ memRead fixB t .sprPri 31 = 0 ∧
    t.fg.dirty = 0 ∧ t.bg.dirty = 0 := by decide +kernel

/-! ### Priority/mode latch (L2.5) -/

/-- The latch fields as (NMI_EN, FLIP, PRIO, ROM_BANK), and the outputs. -/
theorem test_latch_fields :
    [0x00#8, 0x32, 0x41, 0x8C, 0xFF, 0x10, 0x20].map (fun d =>
        let t := (clean []).setLatch d
        (t.nmiEn, t.flip, t.prio, t.romBank)) =
      [(false, false, 0#2, false), (false, true, 3, false), (true, false, 0, true), (false, false, 0, false),
        (true, true, 3, true), (false, false, 1, false), (false, false, 2, false)] ∧
    [0x32#8, 0x41, 0xFF].map (fun d =>
        let t := (clean []).setLatch d
        (t.outNmiEn, t.outFlip, t.outRomBank)) =
      [(false, true, false), (true, false, true), (true, true, true)] := by decide +kernel

/-! ### Frame compositor (L2.6 and the programs of L3) -/

/-- L3's program 1 at a render: cell 32 of both layers and PRI slot 0, every cell dirty. -/
def program1 (latch : Byte) : State :=
  { State.powerUp fixB with
    latch := latch
    mem := [(0x020, 0x05), (0x420, 0x03), (0x820, 0x01), (0xC20, 0x02), (0x1000, 0xEC), (0x1001, 0x18),
      (0x1002, 0x04), (0x1003, 0x02)] }

/-- A layer as it is at power-up is coherent: every cell is dirty. -/
theorem coherent_of_powerUp {cfg : Config} {s : State} {L : LayerId} (h : s.layer L = TileLayer.powerUp) :
    Coherent cfg s L := by
  intro c hc
  rw [h, TileLayer.powerUp_dirty] at hc
  simp at hc

/-- Program 1, draw by draw: the foreground is opaque at (2, 4) and transparent at (5, 0), where the
background shows; the sprite covers (2, 4). -/
theorem test_program1_draws :
    (drawLayer fixB (program1 0x00) .fg).fb.get 2 4 = 0x35 ∧ (drawLayer fixB (program1 0x00) .fg).fb.get 5 0 = 0 ∧
    (drawLayer fixB (program1 0x00) .bg).fb.get 5 0 = 0x20 ∧ (drawBank fixB (program1 0x00) .pri).fb.get 2 4 = 0x46 ∧
    (drawBank fixB (program1 0x00) .pri).fb.get 2 0 = 0 := by
  have c (L : LayerId) : Coherent fixB (program1 0x00) L := coherent_of_powerUp (by cases L <;> rfl)
  rw [drawLayer_get (c .fg), drawLayer_get (c .fg), drawLayer_get (c .bg), drawBank_get, drawBank_get]
  decide +kernel

/-- The picture the claims speak of, at program 1's pixels: codes 0 and 2. -/
theorem test_program1_visible_pens :
    [((0, 0) : Fin 256 × Fin 256), (2, 0), (5, 0), (0, 4), (2, 4), (5, 4)].map
        (fun p => visiblePen fixB (program1 0x00) p.1 p.2) = [0x35, 0x35, 0x20, 0x35, 0x46, 0x46] ∧
    [((0, 0) : Fin 256 × Fin 256), (2, 0), (5, 0), (0, 4), (2, 4), (5, 4)].map
        (fun p => visiblePen fixB (program1 0x20) p.1 p.2) = [0x35, 0x35, 0x20, 0x35, 0x35, 0x46] := by
  decide +kernel

/-- Program 2's memory: PRI slot 0 at (0, 0), SEC slot 0 at (8, 0). -/
def program2 (latch : Byte) : State :=
  { clean [(0x1000, 0xF0), (0x1001, 0x18), (0x1002, 0x04), (0x1020, 0xF0), (0x1021, 0x1C), (0x1022, 0x05),
      (0x1023, 0x08)] with latch := latch }

/-- Program 2: where both banks are opaque, code 1 shows the secondary, every other code the primary. -/
theorem test_program2_visible_pens :
    [((4, 0) : Fin 256 × Fin 256), (12, 0), (20, 0), (12, 15), (8, 8)].map
        (fun p => visiblePen fixB (program2 0x10) p.1 p.2) = [0x46, 0x57, 0x57, 0x57, 0x57] ∧
    [0x20#8, 0x30, 0x00].map (fun l => visiblePen fixB (program2 l) 12 0) = [0x46, 0x46, 0x46] ∧
    visiblePen fixB (program2 0x20) 20 0 = 0x57 := by decide +kernel

/-- Program 5: flip and scroll; the spec's flipped sprite at (229, 229). -/
theorem test_program5_visible_pens :
    let s := { clean [(0x022, 0x09), (0x422, 0x01), (0xC20, 0x07), (0x1000, 230), (0x1001, 0x0C), (0x1002, 0x02),
      (0x1003, 10)] with scroll := 0x10, latch := 0x02 }
    [((255, 255) : Fin 256 × Fin 256), (252, 255), (255, 248), (251, 255), (248, 255), (229, 229), (244, 244),
        (236, 240)].map (fun p => visiblePen fixB s p.1 p.2) =
      [0x19, 0x19, 0x19, 0x70, 0x70, 0x23, 0x23, 0x23] := by decide +kernel

theorem test_draw_orders :
    drawOrder 0 = [.layer .bg, .layer .fg, .bank .sec, .bank .pri] ∧
    drawOrder 1 = [.layer .bg, .bank .pri, .bank .sec, .layer .fg] ∧
    drawOrder 2 = [.layer .bg, .bank .sec, .bank .pri, .layer .fg] ∧ drawOrder 3 = drawOrder 2 := by decide

/-! ### Reset (L2.7) -/

theorem test_reset :
    let s := { clean [(7, 0xAB)] with
      latch := 0x32, scroll := 0x10, phase := .fgLate, palette := [],
      fg := { TileLayer.powerUp with dirty := BitVec.twoPow 1024 7, rederive := 9 } }
    let t := resetCore fixB s
    t.latch = 0 ∧ t.scroll = 0 ∧ t.phase = .idle ∧ t.mem = [(7, 0xAB)] ∧ t.fg.dirty = BitVec.twoPow 1024 7 ∧ t.fg.rederive = 9 ∧
    t.palette[0x46]? = some ⟨0x47, 0xB8, 0x97⟩ ∧ t.outFlip = false := by decide +kernel

/-! ### Steps from power-up -/

/-- A word that decodes to a row of the table runs as the first transaction after power-up. -/
theorem runs_first {w : Nat} {i : Instr} (h : decodeTableWord 24 w = some i) :
    ∃ t, step (State.reset.withFetchWord 24 w) = .next t := by
  have hd : decode (tableWord 24 w) = .row i := by
    unfold decodeTableWord at h
    cases hw : decode (tableWord 24 w) <;> rw [hw] at h <;> simp_all [Decoded.instr?]
  rw [step_cons rfl]
  show ∃ t, perform (decode (tableWord 24 w)) _ = .next t
  rw [hd]
  cases i <;> exact ⟨_, rfl⟩

/-- Each row's word, placed for the next fetch, runs from power-up. -/
theorem test_step_runs_each_row : ∀ w ∈ [0x002112, 0x0421B5, 0x0800FF, 0x0FFF10, 0x100BF8, 0x103F5C, 0x104010,
      0x104132, 0x400500, 0x440500, 0x480500, 0x4FFF00, 0x500000, 0x503F00, 0x800000, 0x800001, 0x800002],
    ∃ t, step (State.reset.withFetchWord 24 w) = .next t := by
  intro w hw
  have h : (decodeTableWord 24 w).isSome = true := by revert w; decide
  obtain ⟨i, hi⟩ := Option.isSome_iff_exists.1 h
  exact runs_first hi

/-- A step of WR_SCROLL 0x10 from power-up. -/
theorem test_step_scroll : ∃ t, step (State.reset.withFetchWord 24 0x104010) = .next t ∧ t.scroll = 0x10 ∧
    t.latch = 0x00 ∧ t.port = [] := ⟨_, rfl, rfl, rfl, rfl⟩

/-! ### Witnesses: concrete states and operands that meet the hypotheses of the obligations -/

/-- A request with its own framebuffer and a one-pixel clip. -/
def corner : Request :=
  { word := 0x104010, clip := ⟨255, 255, 255, 255, le_rfl, le_rfl⟩, fb := some Frame.blank }

theorem witness_StepPerformsTheTransactionAtThePort :
    State.port { State.reset with port := [corner, Request.ofWord 0x800000] } =
      corner :: [Request.ofWord 0x800000] ∧ decode corner.word = .row (.wrScroll 0x10) := ⟨rfl, by decide⟩

theorem witness_IdlePortHoldsTheState : State.port { State.reset with latch := 0x32 } = [] := rfl

theorem witness_FetchedWordIsPerformed : decode 0x104132#24 = .row (.wrCtrl 0x32) ∧
    decode 0x800000#24 = .row .renderFrame := by decide

/-- Both cases of the conclusion: a READ with ignored bits set, and a WRITE. -/
theorem witness_EncodeOfDecodedWord :
    (decode 0x4005FF#24 = .row (.rdFgGfx 5) ∧ (0x4005FF#24).extractLsb' 22 2 = 0b01#2) ∧
    (decode 0x0FFFFF#24 = .row (.wrBgAttr 1023 0xFF) ∧ (0x0FFFFF#24).extractLsb' 22 2 ≠ 0b01#2) := by decide

/-- A first and a last word of a row, the edges of the unmapped addresses, and each kind of reserved word. -/
theorem witness_DecoderHasFourResults :
    Instr.row (.wrFgGfx 0 0) ∈ opcodeTable ∧ decode 0x03FFFF#24 = .row (.wrFgGfx 1023 0xFF) ∧
    (IsWriteTo 0x104200#24 0x1042 ∧ IsWriteTo 0x1FFFFF#24 0x1FFF) ∧
    (IsReadOf 0x504000#24 0x1040 ∧ IsReadOf 0x5FFFFF#24 0x1FFF) := by decide

theorem witness_ReservedWordsAreRefused :
    ReservedWord (0xC00000#24) ∧ ReservedWord (0xFFFFFF#24) ∧ ReservedWord (0x200000#24) ∧
    ReservedWord (0x600000#24) ∧ ReservedWord (0x800004#24) ∧ ReservedWord (0x800003#24) ∧
    ¬ ReservedWord (0x800002#24) := by unfold ReservedWord; decide

/-- The lowest and the highest unmapped address, as a WRITE and as a READ. -/
theorem witness_UnmappedAddressesHaveNoEffect :
    (0x1042 ≤ (0x1042#13).toNat ∧ IsWriteTo 0x104200#24 0x1042 ∧ IsReadOf 0x504200#24 0x1042) ∧
    (0x1042 ≤ (0x1FFF#13).toNat ∧ IsWriteTo 0x1FFF00#24 0x1FFF ∧ IsReadOf 0x5FFF00#24 0x1FFF) := by decide

theorem witness_WriteOnlyRegistersDoNotReadBack :
    IsReadOf 0x504000#24 0x1040 ∧ IsReadOf 0x504100#24 0x1041 := by decide

/-- A dirty cell, and a transaction that is no render, from power-up. -/
theorem witness_RenderRefreshesDirtyCells :
    Instr.wrScroll 0x10 ≠ .renderFrame ∧
    (∃ t, exec (.wrScroll 0x10) State.reset = .next t) ∧
    (State.reset.layer .fg).dirty.getLsbD 0 = true ∧ (State.reset.layer .bg).dirty.getLsbD 1023 = true := by
  refine ⟨by decide, ⟨_, rfl⟩, ?_, ?_⟩
  · show TileLayer.powerUp.dirty.getLsbD 0 = true
    rw [TileLayer.powerUp_dirty]; decide
  · show TileLayer.powerUp.dirty.getLsbD 1023 = true
    rw [TileLayer.powerUp_dirty]; decide

/-- L3's program 3: two writes to foreground cell 5 between two renders. -/
theorem witness_RederivationsCountDistinctCellsWritten :
    (∃ t u, exec .renderFrame State.reset = .next t ∧
      execAll [.wrFgGfx 5 0x12, .wrFgAttr 5 0x00, .rdFgGfx 5] t = some u) ∧
    Instr.renderFrame ∉ [.wrFgGfx 5 0x12, .wrFgAttr 5 0x00, .rdFgGfx 5] ∧
    ([.wrFgGfx 5 0x12, .wrFgAttr 5 0x00, .rdFgGfx 5].filterMap (writtenCell .fg)).dedup = [5] :=
  ⟨⟨_, _, rfl, rfl⟩, by decide, by decide⟩

/-- The other layer's tile write, and a sprite write. -/
theorem witness_OnlyTileWritesAndRendersTouchTheCache :
    (Instr.wrBgGfx 0 0xFF ≠ .renderFrame ∧ writtenCell .fg (.wrBgGfx 0 0xFF) = none ∧
      ∃ t, exec (.wrBgGfx 0 0xFF) State.reset = .next t) ∧
    (Instr.wrSprSec 31 0x5C ≠ .renderFrame ∧ writtenCell .bg (.wrSprSec 31 0x5C) = none ∧
      ∃ t, exec (.wrSprSec 31 0x5C) State.reset = .next t) :=
  ⟨⟨by decide, rfl, _, rfl⟩, ⟨by decide, rfl, _, rfl⟩⟩

/-- Both values of FLIP (at either edge of the screen, `test_layer_coordinates`). -/
theorem witness_LayerCoordinates :
    State.flip { State.reset with latch := 0x02, scroll := 0x10 } = true ∧ State.reset.flip = false := ⟨rfl, rfl⟩

/-- The flip clause of the sprite decode's ranges, at its extremes. -/
theorem witness_SpriteDecodeOfASlot :
    (spriteOf .sec true 0xFF 0 0 0).y = 254 ∧ (spriteOf .sec true 0 0 0 0).y = -1 ∧
    (spriteOf .pri true 0 0 0 0xF8).x = 247 ∧ (spriteOf .pri true 0 0 0 0xF7).x = -8 := by decide

/-- Two memories that differ in the unused bits of PRI slot 0 alone. -/
theorem witness_UnusedSpriteBitsHaveNoEffect :
    let s := { State.reset with mem := [(0x1001, 0x0D), (0x1002, 0xA7)] }
    let t := { s with mem := [(0x1001, 0x0F), (0x1002, 0xB7)] }
    (∃ u, exec (.wrSprPri 1 0x0F) State.reset = .next u) ∧ (∃ u, exec (.wrSprSec 31 0x5C) State.reset = .next u) ∧
    (∀ a, a < 0x1000 → ramByte Config.device t a = ramByte Config.device s a) ∧
    (∀ a, 0x1000 ≤ a → a < 0x1040 → ∀ bit, ¬ (a % 4 = 1 ∧ bit = 1) → ¬ (a % 4 = 2 ∧ bit = 4) →
      (ramByte Config.device t a).getLsbD bit = (ramByte Config.device s a).getLsbD bit) ∧
    ramByte Config.device t 0x1001 ≠ ramByte Config.device s 0x1001 := by
  intro s t
  refine ⟨⟨_, rfl⟩, ⟨_, rfl⟩, fun a ha => ?_, fun a ha ha' bit h1 h2 => ?_, ?_⟩
  · simp only [ramByte, readCells, s, t, if_neg (show ¬ 0x1001 = a by omega), if_neg (show ¬ 0x1002 = a by omega)]
  · simp only [ramByte, readCells, s, t]
    by_cases e1 : 0x1001 = a
    · subst e1
      simp only [if_true]
      by_cases hb : bit < 8
      · interval_cases bit <;> first | rfl | exact absurd ⟨rfl, rfl⟩ h1
      · rw [BitVec.getLsbD_of_ge _ _ (by omega), BitVec.getLsbD_of_ge _ _ (by omega)]
    · by_cases e2 : 0x1002 = a
      · subst e2
        simp only [if_true, if_neg e1]
        by_cases hb : bit < 8
        · interval_cases bit <;> first | rfl | exact absurd ⟨rfl, rfl⟩ h2
        · rw [BitVec.getLsbD_of_ge _ _ (by omega), BitVec.getLsbD_of_ge _ _ (by omega)]
      · simp only [if_neg e1, if_neg e2]
  · simp [ramByte, readCells, s, t]

/-- Latch bytes 0x32 and 0xBE differ in bits 2, 3 and 7 alone. -/
theorem witness_UnusedLatchBitsAffectNothing :
    ∀ b, b = 0 ∨ b = 1 ∨ b = 4 ∨ b = 5 ∨ b = 6 →
      (0xBE#8).getLsbD b = (State.latch { State.reset with latch := 0x32 }).getLsbD b := by
  rintro b (rfl | rfl | rfl | rfl | rfl) <;> rfl

/-- Both variants, at both sides of 0x100 (`test_pen_index_of_each_variant` gives the values). -/
theorem witness_PenIndexOfEachVariant :
    (cmp .a).variant = .a ∧ (cmp .b).variant = .b ∧ 0xFF < (cmp .a).paletteEntries ∧
    0x100 < (cmp .a).paletteEntries ∧ 0x10F < (cmp .b).paletteEntries ∧
    penIndex (cmp .a) 0xFF = 0x00 ∧ penIndex (cmp .a) 0x100 = 0x10 ∧ penIndex (cmp .b) 0x100 = 0x00 := by
  decide +kernel

/-- FIX in both variants: the same PROM and N = 0x100. -/
theorem witness_PaletteBuildWritesThePalette :
    fixA.variant ≠ fixB.variant ∧ fixA.prom = fixB.prom ∧ fixA.paletteEntries = fixB.paletteEntries ∧
    fixA.paletteEntries ≤ 0x100 := ⟨by decide, rfl, rfl, by decide⟩

/-- After power-up and a refresh of both layers: no cell dirty, the caches coherent because they hold what the
RAM gives. -/
def refreshed : State :=
  { State.reset with
    fg := TileLayer.powerUp.refresh (tileInfo Config.device State.reset .fg)
    bg := TileLayer.powerUp.refresh (tileInfo Config.device State.reset .bg) }

theorem reset_coherent (L : LayerId) : Coherent Config.device State.reset L :=
  coherent_of_powerUp (by cases L <;> rfl)

theorem refreshed_coherent {s : State} (hm : s.mem = []) (hf : s.fg = refreshed.fg) (hb : s.bg = refreshed.bg)
    (L : LayerId) : Coherent Config.device s L := by
  have hr (a : Nat) : ramByte Config.device s a = ramByte Config.device State.reset a := by
    unfold ramByte; rw [hm]; rfl
  intro c _
  rw [tileInfo_congr hr]
  cases L with
  | fg =>
    show s.fg.cache[c] = _
    rw [hf]
    exact (TileLayer.refresh_cache _ _ c).trans (if_pos (by rw [TileLayer.powerUp_dirty]; simp))
  | bg =>
    show s.bg.cache[c] = _
    rw [hb]
    exact (TileLayer.refresh_cache _ _ c).trans (if_pos (by rw [TileLayer.powerUp_dirty]; simp))

theorem witness_DisplayedColourIsThePalettes :
    Coherent Config.device refreshed .fg ∧ Coherent Config.device refreshed .bg ∧
    refreshed.palette = buildPalette Config.device ∧ InsidePixel refreshed.clip 0 0 ∧
    InsidePixel refreshed.clip 255 255 :=
  ⟨refreshed_coherent rfl rfl rfl .fg, refreshed_coherent rfl rfl rfl .bg, rfl, by show InsidePixel Clip.full 0 0; decide,
    by show InsidePixel Clip.full 255 255; decide⟩

theorem witness_RenderFollowsThePhaseTable :
    (State.phase { State.reset with latch := 0x10 } = .idle ∧ State.prio { State.reset with latch := 0x10 } ≠ 0#2) ∧
    State.reset.phase = .idle ∧ State.reset.prio = 0#2 := ⟨⟨rfl, by decide⟩, rfl, rfl⟩

/-- A pixel inside and a pixel outside a one-pixel clip. -/
theorem witness_VisiblePixelOfARender :
    let s := { refreshed with clip := corner.clip }
    Coherent Config.device s .fg ∧ Coherent Config.device s .bg ∧
    InsidePixel s.clip 255 255 ∧ ¬ InsidePixel s.clip 254 255 ∧ ¬ InsidePixel s.clip 255 0 :=
  ⟨refreshed_coherent rfl rfl rfl .fg, refreshed_coherent rfl rfl rfl .bg,
    by show InsidePixel corner.clip 255 255; decide, by show ¬ InsidePixel corner.clip 254 255; decide, by show ¬ InsidePixel corner.clip 255 0; decide⟩

/-- Two coherent states that agree on what the picture depends on and differ in caches, counters, palette, the
draws' count and every pixel inside the clip. -/
theorem witness_PictureIsAFunctionOfVisibleState :
    let s := State.reset
    let s' := { refreshed with
      palette := []
      draws := 7
      fb := Frame.paint Frame.blank (fun _ _ => some 1) }
    (∀ L, Coherent Config.device s L) ∧ (∀ L, Coherent Config.device s' L) ∧
    (∀ a, ramByte Config.device s a = ramByte Config.device s' a) ∧ s.scroll = s'.scroll ∧
    s.flip = s'.flip ∧ s.prio = s'.prio ∧ s.clip = s'.clip ∧
    (∀ sx sy, ¬ InsidePixel s.clip sx sy → s.fb.get sx sy = s'.fb.get sx sy) := by
  refine ⟨reset_coherent, refreshed_coherent rfl rfl rfl, fun a => rfl, rfl, rfl, rfl, rfl, fun sx sy h => absurd ?_ h⟩
  show InsidePixel Clip.full sx sy
  have := sx.isLt
  have := sy.isLt
  simp only [InsidePixel, Inside, Clip.full]
  omega

theorem witness_PriorityCodesTwoAndThreeAreAlike :
    State.prio { State.reset with latch := 0x22 } = 2#2 ∧ (0x32#8).extractLsb' 4 2 = 3#2 ∧
    (0x32#8).getLsbD 1 = (State.latch { State.reset with latch := 0x22 }).getLsbD 1 := ⟨by decide, by decide, rfl⟩

/-- A transaction of each row that does change its state. -/
theorem witness_WhoWritesWhichState :
    (∃ t, exec (.wrScroll 0x10) State.reset = .next t ∧ t.scroll ≠ State.reset.scroll) ∧
    (∃ t, exec (.wrCtrl 0x32) State.reset = .next t ∧ t.latch ≠ State.reset.latch) ∧
    (∃ t, exec .paletteBuild { State.reset with palette := ⟨0, 0, 0⟩ :: buildPalette Config.device } = .next t ∧
      t.palette ≠ ⟨0, 0, 0⟩ :: buildPalette Config.device) ∧
    (∃ t, exec .renderFrame { State.reset with phase := .done } = .next t ∧ t.phase ≠ .done) ∧
    (∃ t, exec (.wrFgGfx 5 (~~~ memRead Config.device State.reset .fgGfx 5)) State.reset = .next t ∧
      memRead Config.device t (tileRegion .fg .gfx) 5 ≠ memRead Config.device State.reset (tileRegion .fg .gfx) 5) ∧
    (∃ t, exec (.wrSprSec 31 (~~~ memRead Config.device State.reset .sprSec 31)) State.reset = .next t ∧
      memRead Config.device t (spriteRegion .sec) 31 ≠ memRead Config.device State.reset (spriteRegion .sec) 31) := by
  have ne (b : Byte) : ~~~ b ≠ b := by revert b; decide
  refine ⟨⟨_, rfl, by decide⟩, ⟨_, rfl, by decide⟩, ⟨_, rfl, fun h => ?_⟩, ⟨_, rfl, by decide⟩, ⟨_, rfl, ?_⟩, ⟨_, rfl, ?_⟩⟩
  · exact absurd (congrArg List.length h) (by show (buildPalette Config.device).length ≠ _; simp)
  · refine Eq.trans_ne ?_ (ne _)
    exact ramByte_writeTile_same Config.device State.reset .fg .gfx 5 _
  · refine Eq.trans_ne ?_ (ne _)
    exact ramByte_memWrite_same Config.device State.reset .sprSec 31 _

/-- A history with a WRITE of the byte read and a render, and an empty history at the last RAM byte. -/
theorem witness_ReadReturnsTheLastWrite :
    let history := [Request.ofWord 0x000512, Request.ofWord 0x800000]
    (State.port { State.reset with port := history ++ Request.ofWord 0x400500 :: [corner] } =
        history ++ Request.ofWord 0x400500 :: [corner] ∧
      (∀ q ∈ history, ¬ ReservedWord q.word) ∧ IsReadOf (Request.ofWord 0x400500).word 0x0005 ∧
      (0x0005#13).toNat < 0x1040 ∧ lastWrite 0x0005 history 0x00 = 0x12) ∧
    (IsReadOf 0x503F00#24 0x103F ∧ (0x103F#13).toNat < 0x1040) := by
  refine ⟨⟨rfl, ?_, by decide, by decide, by decide⟩, by decide, by decide⟩
  unfold ReservedWord
  decide

/-- Two planes of one cell, and a RAM byte with a register. -/
theorem witness_WritesToDifferentAddressesCommute :
    Memory.wf Config.device.powerUpByte State.reset.mem ∧ IsWriteTo 0x000512#24 0x0005 ∧
    IsWriteTo 0x040500#24 0x0405 ∧ IsWriteTo 0x104010#24 0x1040 ∧ (0x0005#13 ≠ 0x0405#13 ∧ 0x0005#13 ≠ 0x1040#13) :=
  ⟨Memory.wf_nil, by decide, by decide, by decide, by decide⟩

theorem witness_RepeatedWriteIsIdempotent :
    IsWriteTo 0x000512#24 0x0005 ∧ IsWriteTo 0x104132#24 0x1041 ∧ IsWriteTo 0x1FFF00#24 0x1FFF := by decide

/-- The invariant at a state whose caches are filled and clean, with a transaction at the port, and its step. -/
theorem witness_InvariantKeptByEveryStep :
    Inv Config.device (refreshed.withFetchWord 24 0x000512) ∧
    ∃ t, step (refreshed.withFetchWord 24 0x000512) = .next t :=
  ⟨⟨Memory.wf_nil, refreshed_coherent rfl rfl rfl .fg, refreshed_coherent rfl rfl rfl .bg,
    rfl, rfl⟩, _, rfl⟩

/-- Framebuffers of pen 0, at hand and at the port, and a step that takes one. -/
theorem witness_PensBelowKeptByEveryStep :
    FramesBelow Config.device { State.reset with port := [corner] } ∧
    ∃ t, step { State.reset with port := [corner] } = .next t := by
  have hN : 0 < Config.device.paletteEntries := by
    have := Config.device.wf
    simp only [Params.wellFormed, Params.pensFit, Bool.and_eq_true, decide_eq_true_eq] at this
    omega
  have hb : Frame.blank.PensBelow Config.device.paletteEntries := by
    intro sx sy
    have : Frame.blank.get sx sy = 0 := by simp [Frame.get, Frame.blank]
    rw [this]
    exact hN
  refine ⟨⟨hb, fun r hr f hf => ?_⟩, _, rfl⟩
  rw [List.mem_singleton.1 hr] at hf
  cases hf
  exact hb

/-- Both layers coherent, FLIP clear and set; a pixel inside and one outside the clip. -/
theorem witness_LayerDrawOfEveryPixel :
    (∀ l L, Coherent fixB (program1 l) L) ∧ (program1 0x00).flip = false ∧ (program1 0x02).flip = true ∧
    InsidePixel (program1 0x00).clip 0 0 ∧ InsidePixel (program1 0x00).clip 255 255 ∧
    Coherent Config.device { refreshed with clip := corner.clip } .bg ∧
    ¬ InsidePixel corner.clip 254 255 := by
  refine ⟨fun l L => coherent_of_powerUp (by cases L <;> rfl), rfl, rfl, ?_, ?_, refreshed_coherent rfl rfl rfl .bg, by decide⟩
  · show InsidePixel Clip.full 0 0; decide
  · show InsidePixel Clip.full 255 255; decide

/-- L2.4's slot at x = −8, mirrored: cell pixels (7, 0) and (0, 15) land on the first and the last pixel that shows;
no cell pixel lands on column 8; the one-pixel clip leaves (0, 176) out; a cell whose pixels are all 0. -/
theorem witness_BlitOfEveryPixel :
    let d := spriteOf .pri false 0x40 0x0D 0xA7 0xF8
    (d.flipx = true ∧ d.x + (fixB.spriteW - 1 - (7 : Nat)) = 0 ∧ d.y + (0 : Nat) = 176 ∧
      (fixB.spriteGfx d.code 7 0).toNat ≠ 0 ∧ InsidePixel Clip.full 0 176) ∧
    (d.x + (fixB.spriteW - 1 - (0 : Nat)) = 7 ∧ d.y + (15 : Nat) = 191 ∧
      (fixB.spriteGfx d.code 0 15).toNat ≠ 0 ∧ InsidePixel Clip.full 7 191) ∧
    (∀ u : Nat, u < fixB.spriteW → d.x + (fixB.spriteW - 1 - u) ≠ 8) ∧
    ¬ InsidePixel corner.clip 0 176 ∧
    (∀ u v, (fixB.spriteGfx (spriteOf .pri false 0x40 0x01 0xA7 0xF8).code u v).toNat = 0) := by
  refine ⟨by decide, by decide, fun u hu => ?_, by decide, fun _ _ => by rfl⟩
  have hx : (spriteOf .pri false 0x40 0x0D 0xA7 0xF8).x = -8 := by decide
  have hw : fixB.spriteW = 16 := rfl
  intro h
  rw [hx, hw] at h
  omega

end Sys2Proof.Tests
end

section
/-! PROOFS. The pens that a render can form, and that every step keeps the framebuffers' pens below N
(R13, R16). -/

namespace Sys2Proof.Machine

/-! ### Every pen of a well-formed configuration is below N (R13) -/

/-- R13 for the pens of a layer. -/
theorem pensFit_layer (cfg : Config) (L : LayerId) : cfg.pensFit (colorBase cfg L) cfg.tileBpp = true := by
  have h := cfg.wf
  simp only [Params.wellFormed, Bool.and_eq_true] at h
  obtain ⟨⟨⟨-, hbg⟩, hfg⟩, -⟩ := h
  cases L
  case fg => exact hfg
  case bg => exact hbg

/-- R13 for the pens of the sprites. -/
theorem pensFit_sprite (cfg : Config) : cfg.pensFit cfg.spriteColorBase cfg.spriteBpp = true := by
  have h := cfg.wf
  simp only [Params.wellFormed, Bool.and_eq_true] at h
  exact h.2

/-- The largest pen that R13 admits bounds the pen of every colour group and pixel value. -/
theorem pen_lt_of_pensFit {p : Params} {base bpp : Nat} (h : p.pensFit base bpp = true) (color : BitVec 4)
    (pix : BitVec bpp) : base + color.toNat * 2 ^ bpp + pix.toNat < p.paletteEntries := by
  have hmax : base + 15 * 2 ^ bpp + (2 ^ bpp - 1) < p.paletteEntries := of_decide_eq_true h
  have hcolor : color.toNat * 2 ^ bpp ≤ 15 * 2 ^ bpp := Nat.mul_le_mul_right _ (by omega)
  have hpix := pix.isLt
  omega

theorem tilePen_tilePix_lt (cfg : Config) (L : LayerId) (i : TileInfo) (t : Nat × Nat) :
    tilePen cfg L i (tilePix cfg L i t) < cfg.paletteEntries :=
  pen_lt_of_pensFit (pensFit_layer cfg L) _ _

theorem spritePen_lt (cfg : Config) (d : Sprite) (pix : BitVec cfg.spriteBpp) :
    spritePen cfg d pix.toNat < cfg.paletteEntries :=
  pen_lt_of_pensFit (pensFit_sprite cfg) _ _

/-! ### What the draws put on a pixel is below N -/

theorem tileInk_lt (cfg : Config) (L : LayerId) (i : TileInfo) (t : Nat × Nat) :
    ∀ p ∈ tileInk cfg L i t, p < cfg.paletteEntries := by
  intro p hp
  obtain ⟨-, hp⟩ := Option.ite_none_right_eq_some.1 hp
  exact Option.some.inj hp ▸ tilePen_tilePix_lt cfg L i t

/-- Whatever tile info the cache holds, coherent or not. -/
theorem layerInk_lt (cfg : Config) (s : State) (L : LayerId) (x y : Fin 256) :
    ∀ p ∈ layerInk cfg s L x y, p < cfg.paletteEntries := by
  intro p hp
  obtain ⟨-, hp⟩ := Option.ite_none_right_eq_some.1 hp
  split at hp
  · exact tileInk_lt cfg L _ _ p hp
  · cases hp

theorem spriteSource_lt (cfg : Config) (d : Sprite) (x y : Int) :
    ∀ p ∈ spriteSource cfg d x y, p < cfg.paletteEntries := by
  intro p hp
  obtain ⟨-, hp⟩ := Option.ite_none_right_eq_some.1 hp
  obtain ⟨-, hp⟩ := Option.ite_none_right_eq_some.1 hp
  exact Option.some.inj hp ▸ spritePen_lt cfg d _

theorem bankSource_lt (cfg : Config) (s : State) (b : Bank) (x y : Fin 256) :
    ∀ p ∈ bankSource cfg s b x y, p < cfg.paletteEntries := by
  intro p hp
  obtain ⟨slot, -, hslot⟩ := List.exists_of_findSome?_eq_some hp
  exact spriteSource_lt cfg _ _ _ p hslot

/-! ### A draw and a render keep the framebuffer's pens below N -/

theorem getD_lt {ink : Option Pen} {old n : Nat} (hink : ∀ p ∈ ink, p < n) (hold : old < n) :
    ink.getD old < n := by
  cases ink with
  | none => exact hold
  | some p => exact hink p rfl

theorem drawLayer_pensBelow {cfg : Config} {s : State} (h : s.fb.PensBelow cfg.paletteEntries) (L : LayerId) :
    (drawLayer cfg s L).fb.PensBelow cfg.paletteEntries := by
  intro x y
  rw [drawLayer_fb, Frame.get_paint]
  exact getD_lt (layerInk_lt cfg _ L x y) (h x y)

theorem drawBank_pensBelow {cfg : Config} {s : State} (h : s.fb.PensBelow cfg.paletteEntries) (b : Bank) :
    (drawBank cfg s b).fb.PensBelow cfg.paletteEntries := by
  intro x y
  rw [drawBank_get]
  split
  · exact getD_lt (bankSource_lt cfg s b x y) (h x y)
  · exact h x y

/-- Moving between phases leaves the framebuffer, so the draws of R157's sequence compose. -/
theorem renderFrame_pensBelow {cfg : Config} {s : State} (h : s.fb.PensBelow cfg.paletteEntries) :
    (renderFrame cfg s).fb.PensBelow cfg.paletteEntries := by
  have layer {u : State} (hu : u.fb.PensBelow cfg.paletteEntries) (p : Phase) (L : LayerId) :
      (drawLayer cfg (u.setPhase p) L).fb.PensBelow cfg.paletteEntries :=
    drawLayer_pensBelow (by rwa [State.setPhase_fb]) L
  have bank {u : State} (hu : u.fb.PensBelow cfg.paletteEntries) (p : Phase) (b : Bank) :
      (drawBank cfg (u.setPhase p) b).fb.PensBelow cfg.paletteEntries :=
    drawBank_pensBelow (by rwa [State.setPhase_fb]) b
  by_cases hp : s.prio = 0#2
  · rw [renderFrame_zero cfg s hp, State.respond_fb, State.setPhase_fb, State.setPhase_fb]
    exact bank (bank (layer (layer h _ .bg) _ .fg) _ .sec) _ .pri
  · rw [renderFrame_ne_zero cfg s hp, State.respond_fb, State.setPhase_fb, State.setPhase_fb]
    exact layer (bank (bank (layer h _ .bg) _ (firstBank s.prio)) _ (secondBank s.prio)) _ .fg

/-! ### What a transaction of the table can do -/

/-- The state after a row of the opcode table: a render, a tile or sprite byte written, a byte read, one register
written, the palette rebuilt, or a reset. -/
theorem exec_cases {i : Instr} {s t : State} (h : exec i s = .next t) :
    t = renderFrame Config.device s ∨
    (∃ L p, ∃ c : BitVec 10, ∃ d, t = writeTile Config.device s L p c.toNat d) ∨
    (∃ b, ∃ k : BitVec 5, ∃ d, t = memWrite Config.device s (spriteRegion b) k.toNat d) ∨
    (∃ r j, t = readRam Config.device s r j) ∨
    (∃ d, t = s.setScroll d) ∨ (∃ d, t = s.setLatch d) ∨
    t = s.rebuildPalette Config.device ∨ t = resetCore Config.device s := by
  cases i <;> obtain rfl := Host.Outcome.next.inj h
  case renderFrame => exact .inl rfl
  case wrFgGfx c d => exact .inr (.inl ⟨.fg, .gfx, c, d, rfl⟩)
  case wrFgAttr c d => exact .inr (.inl ⟨.fg, .attr, c, d, rfl⟩)
  case wrBgGfx c d => exact .inr (.inl ⟨.bg, .gfx, c, d, rfl⟩)
  case wrBgAttr c d => exact .inr (.inl ⟨.bg, .attr, c, d, rfl⟩)
  case wrSprPri k d => exact .inr (.inr (.inl ⟨.pri, k, d, rfl⟩))
  case wrSprSec k d => exact .inr (.inr (.inl ⟨.sec, k, d, rfl⟩))
  case wrScroll d => exact .inr (.inr (.inr (.inr (.inl ⟨d, rfl⟩))))
  case wrCtrl d => exact .inr (.inr (.inr (.inr (.inr (.inl ⟨d, rfl⟩)))))
  case paletteBuild => exact .inr (.inr (.inr (.inr (.inr (.inr (.inl rfl))))))
  case reset => exact .inr (.inr (.inr (.inr (.inr (.inr (.inr rfl))))))
  -- the six READs
  all_goals exact .inr (.inr (.inr (.inl ⟨_, _, rfl⟩)))

/-- Only a render changes the framebuffer (R37, R157). -/
theorem exec_fb {i : Instr} {s t : State} (h : exec i s = .next t) :
    t = renderFrame Config.device s ∨ t.fb = s.fb := by
  obtain hrender | hother := exec_cases h
  · exact .inl hrender
  · right
    obtain ⟨L, p, c, d, rfl⟩ | ⟨b, k, d, rfl⟩ | ⟨r, j, rfl⟩ | ⟨d, rfl⟩ | ⟨d, rfl⟩ | rfl | rfl := hother
    all_goals simp [resetCore]

/-- A transaction of the table leaves the others waiting at the port (R52). -/
theorem exec_port {i : Instr} {s t : State} (h : exec i s = .next t) : t.port = s.port := by
  obtain rfl | ⟨L, p, c, d, rfl⟩ | ⟨b, k, d, rfl⟩ | ⟨r, j, rfl⟩ | ⟨d, rfl⟩ | ⟨d, rfl⟩ | rfl | rfl := exec_cases h
  all_goals simp [resetCore]

/-! ### The invariant along a step -/

/-- A state with the same framebuffer and port meets the invariant too. -/
theorem FramesBelow.congr {cfg : Config} {s t : State} (h : FramesBelow cfg s) (hfb : t.fb = s.fb)
    (hport : t.port = s.port) : FramesBelow cfg t := by
  unfold FramesBelow
  rw [hfb, hport]
  exact h

/-- The framebuffer taken from the port is one of those that waited there, or the one at hand (R68). -/
theorem FramesBelow.accept {cfg : Config} {s : State} {r : Request} {rest : List Request}
    (h : FramesBelow cfg s) (hp : s.port = r :: rest) : FramesBelow cfg (s.accept r rest) := by
  obtain ⟨hfb, hport⟩ := h
  rw [hp, List.forall_mem_cons] at hport
  obtain ⟨hr, hrest⟩ := hport
  refine ⟨?_, hrest⟩
  rw [State.accept_fb]
  cases hrf : r.fb with
  | none => exact hfb
  | some f => exact hr f hrf

theorem FramesBelow.of_exec {i : Instr} {s t : State} (h : FramesBelow Config.device s)
    (he : exec i s = .next t) : FramesBelow Config.device t := by
  rcases exec_fb he with rfl | hfb
  · obtain ⟨hs, hport⟩ := h
    exact ⟨renderFrame_pensBelow hs, by rwa [renderFrame_port]⟩
  · exact h.congr hfb (exec_port he)

/-- Settles O47, by the cases of a step: accepting a transaction keeps the invariant, and of what it can perform
only a render writes pens, each of them below N by R13. -/
theorem pensBelowKeptByEveryStep : Obligations.PensBelowKeptByEveryStep := by
  intro s t h hstep
  obtain ⟨-, rfl⟩ | ⟨r, rest, hp, ⟨i, -, he⟩ | ⟨a, d, -, rfl⟩ | ⟨a, -, rfl⟩⟩ := step_cases hstep
  · exact h
  · exact (h.accept hp).of_exec he
  · exact h.accept hp
  · exact (h.accept hp).congr (State.respondAny_fb _ _) (State.respondAny_port _ _)

end Sys2Proof.Machine
end

section
/-! PROOFS. That every step keeps the invariant (R38, R33, R90), and which transactions write which piece of the
state (R40). -/

namespace Sys2Proof.Machine

/-! ### Which RAM byte a write changes -/

@[simp] theorem tileRegion_size (L : LayerId) (p : Plane) : (tileRegion L p).size = 1024 := by
  cases L <;> cases p <;> rfl

@[simp] theorem spriteRegion_size (b : Bank) : (spriteRegion b).size = 32 := by
  cases b <;> rfl

theorem tileRegion_inj {L M : LayerId} {p q : Plane} : tileRegion L p = tileRegion M q ↔ L = M ∧ p = q := by
  cases L <;> cases p <;> cases M <;> cases q <;> decide

theorem spriteRegion_inj {b b' : Bank} : spriteRegion b = spriteRegion b' ↔ b = b' := by
  cases b <;> cases b' <;> decide

theorem tileRegion_ne_spriteRegion (L : LayerId) (p : Plane) (b : Bank) : tileRegion L p ≠ spriteRegion b := by
  cases L <;> cases p <;> cases b <;> decide

/-- A byte that reads differently after a write is the byte written (R15, R46). -/
theorem memRead_memWrite_ne {cfg : Config} {s : State} {r q : Region} {i j : Nat} {v : Byte} (hi : i < r.size)
    (hj : j < q.size) (hne : memRead cfg (memWrite cfg s r i v) q j ≠ memRead cfg s q j) : q = r ∧ j = i := by
  by_contra hother
  exact hne (ramByte_memWrite_other cfg s r i v fun haddr => hother ((Region.addr_inj hj hi).1 haddr))

theorem memRead_writeTile (cfg : Config) (s : State) (L : LayerId) (p : Plane) (c : Nat) (d : Byte) (q : Region)
    (j : Nat) : memRead cfg (writeTile cfg s L p c d) q j = memRead cfg (memWrite cfg s (tileRegion L p) c d) q j := by
  simp [memRead, ramByte]

/-! ### Which cell's tile info a write changes -/

/-- The tile info of a cell reads the two bytes of that cell alone (R99). -/
theorem tileInfo_congr_cell {cfg : Config} {s t : State} {L : LayerId} {c : Nat}
    (h : ∀ p, memRead cfg t (tileRegion L p) c = memRead cfg s (tileRegion L p) c) :
    tileInfo cfg t L c = tileInfo cfg s L c := by
  simp only [tileInfo, h]

theorem tileInfo_memWrite_sprite (cfg : Config) (s : State) (b : Bank) (k : BitVec 5) (v : Byte) (L : LayerId)
    (c : Fin 1024) : tileInfo cfg (memWrite cfg s (spriteRegion b) k.toNat v) L c = tileInfo cfg s L c := by
  refine tileInfo_congr_cell fun p => ?_
  by_contra hne
  obtain ⟨hregion, -⟩ := memRead_memWrite_ne (by simpa using k.isLt) (by simp) hne
  exact tileRegion_ne_spriteRegion L p b hregion

theorem tileInfo_writeTile_other {cfg : Config} {s : State} {L M : LayerId} {p : Plane} {c : BitVec 10} {v : Byte}
    {c' : Fin 1024} (h : M = L → c'.val ≠ c.toNat) :
    tileInfo cfg (writeTile cfg s L p c.toNat v) M c' = tileInfo cfg s M c' := by
  refine tileInfo_congr_cell fun q => ?_
  rw [memRead_writeTile]
  by_contra hne
  obtain ⟨hregion, hcell⟩ := memRead_memWrite_ne (by simpa using c.isLt) (by simp) hne
  exact h (tileRegion_inj.1 hregion).1 hcell

/-! ### Cache coherence after each operation (R38) -/

theorem memWrite_sprite_coherent {cfg : Config} {s : State} {L : LayerId} (h : Coherent cfg s L) (b : Bank)
    (k : BitVec 5) (v : Byte) : Coherent cfg (memWrite cfg s (spriteRegion b) k.toNat v) L := by
  intro c hclean
  rw [memWrite_layer] at hclean ⊢
  rw [tileInfo_memWrite_sprite]
  exact h c hclean

/-- The one cell whose tile info a tile write can change is dirty after it (R100 to R103). -/
theorem writeTile_coherent {cfg : Config} {s : State} {M : LayerId} (h : Coherent cfg s M) (L : LayerId)
    (p : Plane) (c : BitVec 10) (v : Byte) : Coherent cfg (writeTile cfg s L p c.toNat v) M := by
  intro c' hclean
  by_cases hM : M = L
  · subst hM
    rw [writeTile_layer, TileLayer.markDirty_getLsbD _ _ c.isLt, Bool.or_eq_false_iff, decide_eq_false_iff_not]
      at hclean
    obtain ⟨hclean, hc⟩ := hclean
    rw [writeTile_layer, tileInfo_writeTile_other fun _ => hc]
    exact h c' hclean
  · rw [writeTile_layer_other cfg s hM] at hclean ⊢
    rw [tileInfo_writeTile_other fun hML => absurd hML hM]
    exact h c' hclean

/-- A render refreshes both layers from the RAM that it leaves (R112). -/
theorem renderFrame_coherent {cfg : Config} {s : State} {L : LayerId} (h : Coherent cfg s L) :
    Coherent cfg (renderFrame cfg s) L :=
  (refresh_coherent h).congr (by simp) (by rw [renderFrame_layer, State.refresh_layer])

/-! ### The invariant along a step -/

/-- A state with the same RAM and layers meets the invariant if its palette is built and its PHASE idle. -/
theorem Inv.of_same_ram_layers {cfg : Config} {s t : State} (h : Inv cfg s) (hmem : t.mem = s.mem)
    (hlayer : ∀ L, t.layer L = s.layer L) (hpalette : t.palette = buildPalette cfg) (hphase : t.phase = .idle) :
    Inv cfg t := by
  have hram (a : Nat) : ramByte cfg t a = ramByte cfg s a := by rw [ramByte, hmem, ramByte]
  exact ⟨hmem ▸ h.memory, h.fgCoherent.congr hram (hlayer .fg), h.bgCoherent.congr hram (hlayer .bg), hpalette, hphase⟩

theorem Inv.renderFrame {cfg : Config} {s : State} (h : Inv cfg s) : Inv cfg (renderFrame cfg s) :=
  ⟨by simpa using h.memory, renderFrame_coherent h.fgCoherent, renderFrame_coherent h.bgCoherent,
    by simpa using h.palette, renderFrame_phase cfg s⟩

theorem Inv.writeTile {cfg : Config} {s : State} (h : Inv cfg s) (L : LayerId) (p : Plane) (c : BitVec 10)
    (v : Byte) : Inv cfg (writeTile cfg s L p c.toNat v) := by
  refine ⟨?_, writeTile_coherent h.fgCoherent L p c v, writeTile_coherent h.bgCoherent L p c v,
    by simpa using h.palette, by simpa using h.phase⟩
  rw [writeTile_mem]
  exact writeCells_wf (Region.addr_lt _ (by simpa using c.isLt)) h.memory

theorem Inv.memWrite_sprite {cfg : Config} {s : State} (h : Inv cfg s) (b : Bank) (k : BitVec 5) (v : Byte) :
    Inv cfg (memWrite cfg s (spriteRegion b) k.toNat v) :=
  ⟨writeCells_wf (Region.addr_lt _ (by simpa using k.isLt)) h.memory,
    memWrite_sprite_coherent h.fgCoherent b k v, memWrite_sprite_coherent h.bgCoherent b k v, h.palette, h.phase⟩

theorem Inv.accept {cfg : Config} {s : State} (h : Inv cfg s) (r : Request) (rest : List Request) :
    Inv cfg (s.accept r rest) :=
  h.of_same_ram_layers (by simp) (by simp) (by simp [h.palette]) (by simp [h.phase])

theorem Inv.of_exec {i : Instr} {s t : State} (h : Inv Config.device s) (he : exec i s = .next t) :
    Inv Config.device t := by
  obtain rfl | ⟨L, p, c, d, rfl⟩ | ⟨b, k, d, rfl⟩ | hother := exec_cases he
  · exact h.renderFrame
  · exact h.writeTile L p c d
  · exact h.memWrite_sprite b k d
  · -- a READ, a register write, PALETTE_BUILD or RESET: the RAM and the layers stay
    obtain ⟨r, j, rfl⟩ | ⟨d, rfl⟩ | ⟨d, rfl⟩ | rfl | rfl := hother
    all_goals
      exact h.of_same_ram_layers (by simp [resetCore]) (by simp [resetCore]) (by simp [resetCore, h.palette])
        (by simp [resetCore, h.phase])

/-- Settles O46, by the cases of a step: accepting a transaction touches nothing the invariant speaks of, and each
effect a transaction can have keeps it. -/
theorem invariantKeptByEveryStep : Obligations.InvariantKeptByEveryStep := by
  intro s t h hstep
  obtain ⟨-, rfl⟩ | ⟨r, rest, -, ⟨i, -, he⟩ | ⟨a, d, -, rfl⟩ | ⟨a, -, rfl⟩⟩ := step_cases hstep
  · exact h
  · exact (h.accept r rest).of_exec he
  · exact h.accept r rest
  · exact (h.accept r rest).of_same_ram_layers (by simp) (by simp) (by simp [h.palette]) (by simp [h.phase])

/-! ### Which transaction has which effect -/

/-- The WRITE of a byte of a tile cell (R100 to R103). -/
def tileWrite : LayerId → Plane → BitVec 10 → Byte → Instr
  | .fg, .gfx => .wrFgGfx
  | .fg, .attr => .wrFgAttr
  | .bg, .gfx => .wrBgGfx
  | .bg, .attr => .wrBgAttr

/-- The WRITE of a byte of a sprite bank (R128, R129). -/
def spriteWrite : Bank → BitVec 5 → Byte → Instr
  | .pri => .wrSprPri
  | .sec => .wrSprSec

/-- `Effect s i t`: what transaction `i` may make of `s`. These are the cases of `exec_cases` with the transaction that
each belongs to; of a READ, which only answers, R40's table needs no name. -/
inductive Effect (s : State) : Instr → State → Prop
  | render : Effect s .renderFrame (renderFrame Config.device s)
  | tile (L p) (c : BitVec 10) (d) : Effect s (tileWrite L p c d) (writeTile Config.device s L p c.toNat d)
  | sprite (b) (k : BitVec 5) (d) : Effect s (spriteWrite b k d) (memWrite Config.device s (spriteRegion b) k.toNat d)
  | read (i r j) : Effect s i (readRam Config.device s r j)
  | scroll (d) : Effect s (.wrScroll d) (s.setScroll d)
  | ctrl (d) : Effect s (.wrCtrl d) (s.setLatch d)
  | palette : Effect s .paletteBuild (s.rebuildPalette Config.device)
  | reset : Effect s .reset (resetCore Config.device s)

theorem effect_of_exec {i : Instr} {s t : State} (h : exec i s = .next t) : Effect s i t := by
  cases i <;> obtain rfl := Host.Outcome.next.inj h
  case wrFgGfx c d => exact .tile .fg .gfx c d
  case wrFgAttr c d => exact .tile .fg .attr c d
  case wrBgGfx c d => exact .tile .bg .gfx c d
  case wrBgAttr c d => exact .tile .bg .attr c d
  case wrSprPri k d => exact .sprite .pri k d
  case wrSprSec k d => exact .sprite .sec k d
  case wrScroll d => exact .scroll d
  case wrCtrl d => exact .ctrl d
  case renderFrame => exact .render
  case paletteBuild => exact .palette
  case reset => exact .reset
  -- the six READs
  all_goals exact .read _ _ _

theorem writtenCell_tileWrite (L : LayerId) (p : Plane) (c : BitVec 10) (d : Byte) :
    writtenCell L (tileWrite L p c d) = some c.toNat := by
  cases L <;> cases p <;> rfl

/-! ### Each row of the access table (R40) -/

section AccessTable

variable {i : Instr} {s t : State} (h : Effect s i t)
include h

theorem Effect.scroll_ne (hne : t.scroll ≠ s.scroll) : (∃ d, i = .wrScroll d) ∨ i = .reset := by
  cases h
  case scroll d => exact .inl ⟨d, rfl⟩
  case reset => exact .inr rfl
  all_goals exact absurd (by simp) hne

theorem Effect.latch_ne (hne : t.latch ≠ s.latch) : (∃ d, i = .wrCtrl d) ∨ i = .reset := by
  cases h
  case ctrl d => exact .inl ⟨d, rfl⟩
  case reset => exact .inr rfl
  all_goals exact absurd (by simp) hne

theorem Effect.palette_ne (hne : t.palette ≠ s.palette) : i = .paletteBuild ∨ i = .reset := by
  cases h
  case palette => exact .inl rfl
  case reset => exact .inr rfl
  all_goals exact absurd (by simp) hne

theorem Effect.phase_ne (hne : t.phase ≠ s.phase) : i = .renderFrame ∨ i = .reset := by
  cases h
  case render => exact .inl rfl
  case reset => exact .inr rfl
  all_goals exact absurd (by simp) hne

/-- A layer's bookkeeping changes by a render or by a write of one of its cells, which only marks that cell. -/
theorem Effect.layer_eq (L : LayerId) :
    i = .renderFrame ∨ t.layer L = s.layer L ∨
      ∃ c, writtenCell L i = some c ∧ t.layer L = (s.layer L).markDirty c := by
  cases h
  case render => exact .inl rfl
  case tile M p c d =>
    by_cases hL : L = M
    · subst hL
      exact .inr (.inr ⟨c.toNat, writtenCell_tileWrite L p c d, writeTile_layer ..⟩)
    · exact .inr (.inl (writeTile_layer_other _ _ hL ..))
  all_goals exact .inr (.inl (by simp [resetCore]))

theorem Effect.dirty_ne {L : LayerId} (hne : (t.layer L).dirty ≠ (s.layer L).dirty) :
    (writtenCell L i).isSome ∨ i = .renderFrame := by
  obtain hrender | hsame | ⟨c, hc, -⟩ := h.layer_eq L
  · exact .inr hrender
  · exact absurd (by rw [hsame]) hne
  · exact .inl (by simp [hc])

theorem Effect.cache_or_rederive_ne {L : LayerId}
    (hne : (t.layer L).cache ≠ (s.layer L).cache ∨ (t.layer L).rederive ≠ (s.layer L).rederive) :
    i = .renderFrame := by
  obtain hrender | hsame | ⟨c, -, hmark⟩ := h.layer_eq L
  · exact hrender
  · simp [hsame] at hne
  · simp [hmark] at hne

/-- A RAM byte changes only by the WRITE of that very byte. -/
theorem Effect.memRead_ne {q : Region} {j : Nat} (hj : j < q.size)
    (hne : memRead Config.device t q j ≠ memRead Config.device s q j) :
    (∃ L p, ∃ c : BitVec 10, ∃ d, i = tileWrite L p c d ∧ q = tileRegion L p ∧ j = c.toNat) ∨
    (∃ b, ∃ k : BitVec 5, ∃ d, i = spriteWrite b k d ∧ q = spriteRegion b ∧ j = k.toNat) := by
  cases h
  case tile L p c d =>
    rw [memRead_writeTile] at hne
    exact .inl ⟨L, p, c, d, rfl, memRead_memWrite_ne (by simpa using c.isLt) hj hne⟩
  case sprite b k d => exact .inr ⟨b, k, d, rfl, memRead_memWrite_ne (by simpa using k.isLt) hj hne⟩
  all_goals exact absurd (by simp [memRead, resetCore]) hne

theorem Effect.tileByte_ne {L : LayerId} {p : Plane} {c : BitVec 10}
    (hne : memRead Config.device t (tileRegion L p) c.toNat ≠ memRead Config.device s (tileRegion L p) c.toNat) :
    writtenCell L i = some c.toNat := by
  obtain ⟨M, q, c', d, rfl, hregion, hcell⟩ | ⟨b, k, d, -, hregion, -⟩ :=
    h.memRead_ne (by simpa using c.isLt) hne
  · obtain ⟨rfl, rfl⟩ := tileRegion_inj.1 hregion
    rw [hcell, writtenCell_tileWrite]
  · exact absurd hregion (tileRegion_ne_spriteRegion L p b)

theorem Effect.spriteByte_ne {b : Bank} {k : BitVec 5}
    (hne : memRead Config.device t (spriteRegion b) k.toNat ≠ memRead Config.device s (spriteRegion b) k.toNat) :
    ∃ d, i = spriteWrite b k d := by
  obtain ⟨L, p, c, d, -, hregion, -⟩ | ⟨b', k', d, rfl, hregion, hk⟩ := h.memRead_ne (by simpa using k.isLt) hne
  · exact absurd hregion.symm (tileRegion_ne_spriteRegion L p b)
  · obtain rfl := spriteRegion_inj.1 hregion
    obtain rfl := BitVec.eq_of_toNat_eq hk
    exact ⟨d, rfl⟩

end AccessTable

/-- Settles O41: each clause is a row of R40's table, read off the effect of the transaction. -/
theorem whoWritesWhichState : Obligations.WhoWritesWhichState := by
  intro i s t hexec
  have h := effect_of_exec hexec
  refine ⟨h.scroll_ne, h.latch_ne, h.palette_ne, h.phase_ne, fun _ => h.dirty_ne, fun _ => h.cache_or_rederive_ne,
    fun _ _ _ => h.tileByte_ne, fun b k hne => ?_⟩
  obtain ⟨d, rfl⟩ := h.spriteByte_ne hne
  exact ⟨d, by cases b <;> rfl⟩

/-! ### The idle port -/

theorem step_nil {s : State} (h : s.port = []) : step s = .next s := by
  unfold step
  rw [h]

/-- Settles O3, by the first branch of the step (R41, R184). -/
theorem idlePortHoldsTheState : Obligations.IdlePortHoldsTheState :=
  fun _ => step_nil

end Sys2Proof.Machine
end

section
/-! PROOFS. What a word at the port does to the RAM: the WRITEs and READs of R69 and R70 by their port address, the
words with no effect (R48, R60), a WRITE performed twice (R51), and the last WRITE that a READ returns (R53). -/

namespace Sys2Proof.Machine

/-! ### One step, by what the head of the port decodes to -/

theorem step_row {s : State} {r : Request} {rest : List Request} {i : Instr} (hp : s.port = r :: rest)
    (hd : decode r.word = .row i) : step s = exec i (s.accept r rest) := by
  rw [step_cons hp, hd, perform]

/-- Settles O2, by the row's branch of `perform` on the accepted state. -/
theorem stepPerformsTheTransactionAtThePort : Obligations.StepPerformsTheTransactionAtThePort :=
  fun _ _ _ _ => step_row

/-- A 24-bit word is its own table word: nothing is cut off. -/
theorem tableWord_toNat (w : Word) : tableWord 24 w.toNat = w := by
  rw [tableWord, Nat.mod_eq_of_lt w.isLt, BitVec.ofNat_toNat, BitVec.setWidth_eq]

theorem State.withFetchWord_port (s : State) (w : Word) :
    (s.withFetchWord 24 w.toNat).port = Request.ofWord w :: s.port := by
  rw [State.withFetchWord, tableWord_toNat]

/-- Settles O4: the placed word is the head of the port, so the step is the one of its row. -/
theorem fetchedWordIsPerformed : Obligations.FetchedWordIsPerformed := by
  intro s w i hd
  refine ⟨?_, step_row (s.withFetchWord_port w) hd⟩
  rw [decodeTableWord, tableWord_toNat, hd, Decoded.instr?]

/-! ### The class of a word (R64) -/

/-- The decoder on a word past the first two checks of R73: each class has its own table. -/
theorem decode_of_bit21_zero {w : Word} (hclass : w.extractLsb' 22 2 ≠ 0b11#2) (hbit : w.getLsbD 21 = false) :
    decode w = if w.extractLsb' 22 2 = 0b00#2 then decodeWrite (Word.addr w) (Word.data w)
      else if w.extractLsb' 22 2 = 0b01#2 then decodeRead (Word.addr w) else decodeStrobe w := by
  rw [decode, Word.cls, if_neg hclass, if_neg (by rw [hbit]; decide)]

/-! ### What a WRITE does, by its address (R46, R69) -/

theorem decode_of_isWriteTo {w : Word} {a : PortAddr} (h : IsWriteTo w a) :
    decode w = decodeWrite a (Word.data w) := by
  obtain ⟨hclass, hbit, rfl⟩ := h
  rw [decode_of_bit21_zero (by rw [hclass]; decide) hbit, if_pos hclass, Word.addr]

/-- `DecodedWrite a d x`: `x` is what a WRITE of `d` to `a` may decode to. The rows of R69's table, each with the
address of the byte or register it writes, and the addresses that have none. -/
inductive DecodedWrite (a : PortAddr) (d : Byte) : Decoded → Prop
  | tile (L p) (c : BitVec 10) (ha : a.toNat = (tileRegion L p).base + c.toNat) :
      DecodedWrite a d (.row (tileWrite L p c d))
  | sprite (b) (k : BitVec 5) (ha : a.toNat = (spriteRegion b).base + k.toNat) :
      DecodedWrite a d (.row (spriteWrite b k d))
  | scroll (ha : a.toNat = 0x1040) : DecodedWrite a d (.row (.wrScroll d))
  | ctrl (ha : a.toNat = 0x1041) : DecodedWrite a d (.row (.wrCtrl d))
  | unmapped (ha : 0x1042 ≤ a.toNat) : DecodedWrite a d (.unmappedWrite a d)

theorem decodedWrite (a : PortAddr) (d : Byte) : DecodedWrite a d (decodeWrite a d) := by
  rw [decodeWrite_nat]
  split_ifs with h1 h2 h3 h4 h5 h6 h7 h8
  · exact .tile .fg .gfx _ (by rw [cell_toNat, tileRegion, Region.base]; omega)
  · exact .tile .fg .attr _ (by rw [cell_toNat, tileRegion, Region.base]; omega)
  · exact .tile .bg .gfx _ (by rw [cell_toNat, tileRegion, Region.base]; omega)
  · exact .tile .bg .attr _ (by rw [cell_toNat, tileRegion, Region.base]; omega)
  · exact .sprite .pri _ (by rw [spriteByte_toNat, spriteRegion, Region.base]; omega)
  · exact .sprite .sec _ (by rw [spriteByte_toNat, spriteRegion, Region.base]; omega)
  · exact .scroll h7
  · exact .ctrl h8
  · exact .unmapped (by omega)

theorem perform_tileWrite (L : LayerId) (p : Plane) (c : BitVec 10) (d : Byte) (s : State) :
    perform (.row (tileWrite L p c d)) s = .next (writeTile Config.device s L p c.toNat d) := by
  cases L <;> cases p <;> rfl

theorem perform_spriteWrite (b : Bank) (k : BitVec 5) (d : Byte) (s : State) :
    perform (.row (spriteWrite b k d)) s = .next (memWrite Config.device s (spriteRegion b) k.toNat d) := by
  cases b <;> rfl

/-! ### What a READ does, by its address (R46, R70) -/

theorem decode_of_isReadOf {w : Word} {a : PortAddr} (h : IsReadOf w a) : decode w = decodeRead a := by
  obtain ⟨hclass, hbit, rfl⟩ := h
  rw [decode_of_bit21_zero (by rw [hclass]; decide) hbit, if_neg (by rw [hclass]; decide), if_pos hclass, Word.addr]

theorem readRam_eq_respond {a : PortAddr} {r : Region} {i : Nat} (ha : a.toNat = r.base + i) (s : State) :
    readRam Config.device s r i = s.respond (.byte (ramByte Config.device s a.toNat)) := by
  rw [readRam, memRead, ha]

/-- A READ of a RAM address answers the byte there and does nothing else (R104 to R107, R141, R142). -/
theorem perform_decodeRead_ram {a : PortAddr} (ha : a.toNat < 0x1040) (s : State) :
    perform (decodeRead a) s = .next (s.respond (.byte (ramByte Config.device s a.toNat))) := by
  rw [decodeRead_nat]
  split_ifs with h1 h2 h3 h4 h5
  · exact congrArg _ (readRam_eq_respond (r := .fgGfx) (by rw [cell_toNat, Region.base]; omega) s)
  · exact congrArg _ (readRam_eq_respond (r := .fgAttr) (by rw [cell_toNat, Region.base]; omega) s)
  · exact congrArg _ (readRam_eq_respond (r := .bgGfx) (by rw [cell_toNat, Region.base]; omega) s)
  · exact congrArg _ (readRam_eq_respond (r := .bgAttr) (by rw [cell_toNat, Region.base]; omega) s)
  · exact congrArg _ (readRam_eq_respond (r := .sprPri) (by rw [spriteByte_toNat, Region.base]; omega) s)
  · exact congrArg _ (readRam_eq_respond (r := .sprSec) (by rw [spriteByte_toNat, Region.base]; omega) s)

theorem decodeRead_of_ge {a : PortAddr} (ha : 0x1040 ≤ a.toNat) : decodeRead a = .noEffectRead a := by
  rw [decodeRead_nat, if_neg (by omega), if_neg (by omega), if_neg (by omega), if_neg (by omega),
    if_neg (by omega), if_neg (by omega)]

/-! ### The words with no effect (R48, R60) -/

theorem decodeWrite_of_ge {a : PortAddr} (ha : 0x1042 ≤ a.toNat) (d : Byte) :
    decodeWrite a d = .unmappedWrite a d := by
  rw [decodeWrite_nat, if_neg (by omega), if_neg (by omega), if_neg (by omega), if_neg (by omega),
    if_neg (by omega), if_neg (by omega), if_neg (by omega), if_neg (by omega)]

theorem step_unmappedWrite {s : State} {r : Request} {rest : List Request} {a : PortAddr}
    (hp : s.port = r :: rest) (hw : IsWriteTo r.word a) (ha : 0x1042 ≤ a.toNat) :
    step s = .next (s.accept r rest) := by
  rw [step_cons hp, decode_of_isWriteTo hw, decodeWrite_of_ge ha, perform, performUnmappedWrite]

theorem step_noEffectRead {s : State} {r : Request} {rest : List Request} {a : PortAddr}
    (hp : s.port = r :: rest) (hr : IsReadOf r.word a) (ha : 0x1040 ≤ a.toNat) :
    step s = .next ((s.accept r rest).respondAny Config.device) := by
  rw [step_cons hp, decode_of_isReadOf hr, decodeRead_of_ge ha, perform, performNoEffectRead]

/-- Settles O11: an unmapped WRITE leaves the accepted state, and a READ only answers a draw. -/
theorem unmappedAddressesHaveNoEffect : Obligations.UnmappedAddressesHaveNoEffect :=
  fun _ _ _ _ ha =>
    ⟨fun hw => step_unmappedWrite rfl hw ha, fun hr => step_noEffectRead rfl hr (by omega)⟩

/-- Settles O12: the byte answered is the draw of the counter, which both states share. -/
theorem writeOnlyRegistersDoNotReadBack : Obligations.WriteOnlyRegistersDoNotReadBack := by
  intro s scroll latch r rest a ha hr
  have hge : 0x1040 ≤ a.toNat := by obtain rfl | rfl := ha <;> decide
  exact ⟨Config.device.portByte s.draws, step_noEffectRead rfl hr hge, step_noEffectRead rfl hr hge⟩

/-! ### A WRITE performed twice (R51) -/

theorem putCell_putCell (m : List Host.Cell) (a : Nat) (v : Byte) : putCell (putCell m a v) a v = putCell m a v := by
  induction m with
  | nil => simp [putCell]
  | cons c rest ih =>
    obtain ⟨k, w⟩ := c
    rcases Nat.lt_trichotomy a k with hlt | rfl | hgt
    · simp [putCell, hlt]
    · simp [putCell]
    · simp [putCell, hgt.not_gt, hgt.ne', ih]

/-- A byte stored twice is stored once, in canonical memory or not. -/
theorem writeCells_writeCells (d : Nat → Byte) (m : List Host.Cell) (a : Nat) (v : Byte) :
    writeCells d (writeCells d m a v) a v = writeCells d m a v := by
  by_cases hv : v = d a
  · simp [writeCells, ← hv]
  · simp [writeCells, hv, putCell_putCell]

theorem memWrite_memWrite (cfg : Config) (s : State) (r : Region) (i : Nat) (v : Byte) :
    memWrite cfg (memWrite cfg s r i v) r i v = memWrite cfg s r i v := by
  simp only [memWrite, writeCells_writeCells]

theorem TileLayer.markDirty_markDirty (l : TileLayer) (c : Nat) : (l.markDirty c).markDirty c = l.markDirty c := by
  simp only [TileLayer.markDirty, BitVec.or_assoc, BitVec.or_self]

theorem writeTile_writeTile (cfg : Config) (s : State) (L : LayerId) (p : Plane) (c : Nat) (d : Byte) :
    writeTile cfg (writeTile cfg s L p c d) L p c d = writeTile cfg s L p c d := by
  cases L <;>
    simp only [writeTile, memWrite, State.layer, State.setLayer, writeCells_writeCells, TileLayer.markDirty_markDirty]

theorem DecodedWrite.perform_twice {a : PortAddr} {d : Byte} {x : Decoded} (h : DecodedWrite a d x) (s : State) :
    ∃ t, perform x s = .next t ∧ perform x t = .next t := by
  cases h
  case tile L p c ha =>
    exact ⟨_, perform_tileWrite L p c d s, by rw [perform_tileWrite, writeTile_writeTile]⟩
  case sprite b k ha =>
    exact ⟨_, perform_spriteWrite b k d s, by rw [perform_spriteWrite, memWrite_memWrite]⟩
  case scroll => exact ⟨s.setScroll d, rfl, rfl⟩
  case ctrl => exact ⟨s.setLatch d, rfl, rfl⟩
  case unmapped => exact ⟨s, rfl, rfl⟩

/-- Settles O44, by the cases of the WRITE's address: a stored byte, a dirty mark and a register value are the same
after the second time. -/
theorem repeatedWriteIsIdempotent : Obligations.RepeatedWriteIsIdempotent := by
  intro s w a h
  rw [decode_of_isWriteTo h]
  exact (decodedWrite a _).perform_twice s

/-! ### The RAM after one word -/

/-- The byte at `b` after the word `w`, where it was `old`: what a WRITE to `b` stores, else `old` (R53). -/
def byteAfter (w : Word) (b : PortAddr) (old : Byte) : Byte := if IsWriteTo w b then w.extractLsb' 0 8 else old

theorem lastWrite_cons (a : PortAddr) (q : Request) (history : List Request) (old : Byte) :
    lastWrite a (q :: history) old = lastWrite a history (byteAfter q.word a old) := rfl

theorem byteAfter_of_isWriteTo {w : Word} {a : PortAddr} (h : IsWriteTo w a) (b : PortAddr) (old : Byte) :
    byteAfter w b old = if b = a then Word.data w else old := by
  obtain ⟨hclass, hbit, rfl⟩ := h
  simp only [byteAfter, IsWriteTo, hclass, hbit, true_and, Word.data, eq_comm]

theorem byteAfter_of_class {w : Word} (h : w.extractLsb' 22 2 ≠ 0b00#2) (b : PortAddr) (old : Byte) :
    byteAfter w b old = old :=
  if_neg fun ⟨hclass, _⟩ => h hclass

/-- What performing the word `w` on `s` makes of the port and the RAM: the other requests still wait (R52), and each
RAM byte changes by a WRITE to it alone (R53). -/
structure PerformedOnRam (w : Word) (s t : State) : Prop where
  port : t.port = s.port
  ram : ∀ b : PortAddr, b.toNat < 0x1040 →
    ramByte Config.device t b.toNat = byteAfter w b (ramByte Config.device s b.toNat)

theorem PerformedOnRam.of_same_ram {w : Word} {s t : State} (hclass : w.extractLsb' 22 2 ≠ 0b00#2)
    (hport : t.port = s.port) (hram : ∀ a, ramByte Config.device t a = ramByte Config.device s a) :
    PerformedOnRam w s t :=
  ⟨hport, fun b _ => by rw [hram, byteAfter_of_class hclass]⟩

theorem ramByte_of_writeCells {s t : State} {a : PortAddr} {d : Byte}
    (hmem : t.mem = writeCells Config.device.powerUpByte s.mem a.toNat d) (b : PortAddr) :
    ramByte Config.device t b.toNat = if b = a then d else ramByte Config.device s b.toNat := by
  rw [ramByte, hmem]
  split_ifs with hb
  · rw [hb, readCells_write_same]
  · exact readCells_write_other fun h => hb (BitVec.eq_of_toNat_eq h)

/-- A WRITE stores its byte at its own address, and at no other RAM address. -/
theorem DecodedWrite.ram {a : PortAddr} {d : Byte} {x : Decoded} (h : DecodedWrite a d x) (s : State) :
    ∃ t, perform x s = .next t ∧ t.port = s.port ∧ ∀ b : PortAddr, b.toNat < 0x1040 →
      ramByte Config.device t b.toNat = if b = a then d else ramByte Config.device s b.toNat := by
  cases h
  case tile L p c ha =>
    exact ⟨_, perform_tileWrite L p c d s, writeTile_port .., fun b _ =>
      ramByte_of_writeCells (by rw [writeTile_mem, ha]) b⟩
  case sprite b k ha =>
    exact ⟨_, perform_spriteWrite b k d s, memWrite_port .., fun b _ =>
      ramByte_of_writeCells (by rw [memWrite_mem, ha]) b⟩
  case scroll ha => exact ⟨s.setScroll d, rfl, rfl, fun b hb => (if_neg (by rintro rfl; omega)).symm⟩
  case ctrl ha => exact ⟨s.setLatch d, rfl, rfl, fun b hb => (if_neg (by rintro rfl; omega)).symm⟩
  case unmapped ha => exact ⟨s, rfl, rfl, fun b hb => (if_neg (by rintro rfl; omega)).symm⟩

theorem perform_of_isWriteTo {w : Word} {a : PortAddr} (h : IsWriteTo w a) (s : State) :
    ∃ t, perform (decode w) s = .next t ∧ PerformedOnRam w s t := by
  rw [decode_of_isWriteTo h]
  obtain ⟨t, ht, hport, hram⟩ := (decodedWrite a (Word.data w)).ram s
  exact ⟨t, ht, hport, fun b hb => by rw [hram b hb, byteAfter_of_isWriteTo h]⟩

theorem perform_of_isReadOf {w : Word} {a : PortAddr} (h : IsReadOf w a) (s : State) :
    ∃ t, perform (decode w) s = .next t ∧ PerformedOnRam w s t := by
  rw [decode_of_isReadOf h]
  obtain ⟨hclass, -, -⟩ := h
  have hnot00 : w.extractLsb' 22 2 ≠ 0b00#2 := by rw [hclass]; decide
  obtain hlt | hge := Nat.lt_or_ge a.toNat 0x1040
  · exact ⟨_, perform_decodeRead_ram hlt s, .of_same_ram hnot00 (by simp) (by simp)⟩
  · rw [decodeRead_of_ge hge]
    exact ⟨s.respondAny Config.device, rfl, .of_same_ram hnot00 (by simp) (by simp)⟩

/-- The two bits of a class or of a strobe code have four values (R64, R71). -/
theorem twoBits_cases (x : BitVec 2) : x = 0b00#2 ∨ x = 0b01#2 ∨ x = 0b10#2 ∨ x = 0b11#2 := by
  revert x
  decide

theorem decode_strobe {w : Word} (hclass : w.extractLsb' 22 2 = 0b10#2) (h : ¬ ReservedWord w) :
    decode w = .row .renderFrame ∨ decode w = .row .paletteBuild ∨ decode w = .row .reset := by
  simp only [ReservedWord, not_or, not_and, Bool.not_eq_true, ne_eq, not_not] at h
  obtain ⟨hnot11, hbit, hzero, hcode⟩ := h
  rw [decode_of_bit21_zero hnot11 hbit, if_neg (by rw [hclass]; decide), if_neg (by rw [hclass]; decide), decodeStrobe,
    if_neg (not_not.2 (hzero hclass))]
  obtain hs | hs | hs | hs := twoBits_cases (w.extractLsb' 0 2)
  · exact .inl (if_pos hs)
  · exact .inr (.inl (by rw [hs]; rfl))
  · exact .inr (.inr (by rw [hs]; rfl))
  · exact absurd hs (hcode hclass)

theorem perform_of_strobe {w : Word} (hclass : w.extractLsb' 22 2 = 0b10#2) (h : ¬ ReservedWord w) (s : State) :
    ∃ t, perform (decode w) s = .next t ∧ PerformedOnRam w s t := by
  have hnot00 : w.extractLsb' 22 2 ≠ 0b00#2 := by rw [hclass]; decide
  obtain hd | hd | hd := decode_strobe hclass h <;> rw [hd]
  · exact ⟨renderFrame Config.device s, rfl, .of_same_ram hnot00 (by simp) (by simp)⟩
  · exact ⟨s.rebuildPalette Config.device, rfl, .of_same_ram hnot00 (by simp) (by simp)⟩
  · exact ⟨resetCore Config.device s, rfl, .of_same_ram hnot00 (by simp [resetCore]) (by simp [resetCore])⟩

/-- Every word that is not reserved completes: it is a WRITE, a READ, or one of the three STROBEs (R64 to R73). -/
theorem perform_of_not_reserved {w : Word} (h : ¬ ReservedWord w) (s : State) :
    ∃ t, perform (decode w) s = .next t ∧ PerformedOnRam w s t := by
  have hbit : w.getLsbD 21 = false := Bool.eq_false_iff.2 fun hbit => h (.inr (.inl hbit))
  obtain hclass | hclass | hclass | hclass := twoBits_cases (w.extractLsb' 22 2)
  · exact perform_of_isWriteTo ⟨hclass, hbit, rfl⟩ s
  · exact perform_of_isReadOf ⟨hclass, hbit, rfl⟩ s
  · exact perform_of_strobe hclass h s
  · exact absurd (.inl hclass) h

/-! ### A history of words and then a READ (R53) -/

theorem run_succ_of_step {M : Host.Core} {s t : M.State} (h : M.step s = .next t) (k : Nat) :
    M.run (k + 1) s = M.run k t := by
  rw [Host.Core.run, h]

theorem step_of_not_reserved {s : State} {q : Request} {rest : List Request} (hp : s.port = q :: rest)
    (hq : ¬ ReservedWord q.word) :
    ∃ t, step s = .next t ∧ t.port = rest ∧ ∀ b : PortAddr, b.toNat < 0x1040 →
      ramByte Config.device t b.toNat = byteAfter q.word b (ramByte Config.device s b.toNat) := by
  obtain ⟨t, ht, hport, hram⟩ := perform_of_not_reserved hq (s.accept q rest)
  exact ⟨t, by rw [step_cons hp, ht], hport, hram⟩

theorem step_ramRead {s : State} {r : Request} {rest : List Request} {a : PortAddr} (hp : s.port = r :: rest)
    (hr : IsReadOf r.word a) (ha : a.toNat < 0x1040) :
    step s = .next ((s.accept r rest).respond (.byte (ramByte Config.device s a.toNat))) := by
  rw [step_cons hp, decode_of_isReadOf hr, perform_decodeRead_ram ha, State.accept_ramByte]

/-- By induction on the history: each of its words makes of the byte what `lastWrite` folds over it. -/
theorem run_through_read {history : List Request} {r : Request} {rest : List Request} {a : PortAddr}
    (hr : IsReadOf r.word a) (ha : a.toNat < 0x1040) {s : State} (hp : s.port = history ++ r :: rest)
    (hh : ∀ q ∈ history, ¬ ReservedWord q.word) :
    ∃ t : State, Host.Core.run core (history.length + 1) s = .next t ∧
      t.response = .byte (lastWrite a history (ramByte Config.device s a.toNat)) ∧ t.port = rest := by
  induction history generalizing s with
  | nil => exact ⟨_, run_succ_of_step (M := core) (step_ramRead hp hr ha) 0, rfl, rfl⟩
  | cons q history ih =>
    obtain ⟨hq, hh⟩ := List.forall_mem_cons.1 hh
    obtain ⟨u, hu, hport, hram⟩ := step_of_not_reserved hp hq
    obtain ⟨t, ht, hresponse⟩ := ih hport hh
    refine ⟨t, (run_succ_of_step (M := core) hu _).trans ht, ?_⟩
    rwa [lastWrite_cons, ← hram a ha]

/-- Settles O42, by the run through the READ; at power-up no byte is listed, so each reads as its draw. -/
theorem readReturnsTheLastWrite : Obligations.ReadReturnsTheLastWrite :=
  ⟨fun _ _ _ _ _ hp hh hr ha => run_through_read hr ha hp hh, fun _ _ => readCells_nil⟩

end Sys2Proof.Machine
end

section
/-! PROOFS. The transaction words: the encoder and the decoder undo each other (R65 to R72), the four results of
the decoder (R73, R74, R77), and the words of the assembler's lines (R78, R79). -/

namespace Sys2Proof.Machine

/-! ### The class of a word as a range of its number (R64 to R66) -/

/-- The words of class `k` with bit 21 zero and address `a` are 256 in a row. -/
theorem class_addr_iff {w : Word} {a : PortAddr} {k : Nat} (hk : k < 4) :
    (w.extractLsb' 22 2 = BitVec.ofNat 2 k ∧ w.getLsbD 21 = false ∧ w.extractLsb' 8 13 = a) ↔
      w.toNat / 256 = k * 0x4000 + a.toNat := by
  have ha := a.isLt
  have hclass : w.extractLsb' 22 2 = BitVec.ofNat 2 k ↔ _ := cls_iff w k hk
  have haddr : (w.extractLsb' 8 13).toNat = _ := addr_toNat w
  rw [hclass, ← Bool.not_eq_true, bit21_iff, ← BitVec.toNat_inj, haddr]
  omega

theorem isWriteTo_iff {w : Word} {a : PortAddr} : IsWriteTo w a ↔ w.toNat / 256 = a.toNat :=
  (class_addr_iff (k := 0) (by decide)).trans (by rw [Nat.zero_mul, Nat.zero_add])

theorem isReadOf_iff {w : Word} {a : PortAddr} : IsReadOf w a ↔ w.toNat / 256 = 0x4000 + a.toNat :=
  class_addr_iff (k := 1) (by decide)

theorem isWriteTo_encodeWrite (a : PortAddr) (d : Byte) : IsWriteTo (encodeWrite a d) a := by
  rw [isWriteTo_iff, encodeWrite_toNat]
  omega

theorem isReadOf_encodeRead (a : PortAddr) : IsReadOf (encodeRead a) a := by
  rw [isReadOf_iff, encodeRead_toNat]
  omega

theorem data_encodeWrite (a : PortAddr) (d : Byte) : Word.data (encodeWrite a d) = d := by
  refine BitVec.eq_of_toNat_eq ?_
  rw [data_toNat, encodeWrite_toNat]
  omega

theorem encodeWrite_of_isWriteTo {w : Word} {a : PortAddr} (h : IsWriteTo w a) : encodeWrite a (Word.data w) = w := by
  rw [isWriteTo_iff] at h
  refine BitVec.eq_of_toNat_eq ?_
  rw [encodeWrite_toNat, data_toNat]
  omega

/-- A READ's data bits are ignored (R66), and the encoder writes them 0. -/
theorem encodeRead_of_isReadOf {w : Word} {a : PortAddr} (h : IsReadOf w a) : encodeRead a = w &&& 0xFFFF00#24 := by
  rw [isReadOf_iff] at h
  have hmask : (w &&& 0xFFFF00#24).toNat = w.toNat / 2 ^ 8 * 2 ^ 8 := and_highMask _ 8 w.isLt (by decide)
  refine BitVec.eq_of_toNat_eq ?_
  rw [encodeRead_toNat, hmask]
  omega

theorem decode_encodeWrite (a : PortAddr) (d : Byte) : decode (encodeWrite a d) = decodeWrite a d := by
  rw [decode_of_isWriteTo (isWriteTo_encodeWrite a d), data_encodeWrite]

theorem decode_encodeRead (a : PortAddr) : decode (encodeRead a) = decodeRead a :=
  decode_of_isReadOf (isReadOf_encodeRead a)

/-! ### Decoding what the encoder writes -/

theorem cell_append (r : BitVec 3) (c : BitVec 10) : PortAddr.cell (r ++ c) = c := by
  refine BitVec.eq_of_toNat_eq ?_
  rw [cell_toNat, cellAddr_toNat]
  omega

theorem spriteByte_append (r : BitVec 8) (k : BitVec 5) : PortAddr.spriteByte (r ++ k) = k := by
  refine BitVec.eq_of_toNat_eq ?_
  rw [spriteByte_toNat, spriteAddr_toNat]
  omega

theorem high3_append (r : BitVec 3) (c : BitVec 10) : (r ++ c : PortAddr).extractLsb' 10 3 = r := by
  refine BitVec.eq_of_toNat_eq ?_
  rw [high3_toNat, cellAddr_toNat]
  omega

theorem high8_append (r : BitVec 8) (k : BitVec 5) : (r ++ k : PortAddr).extractLsb' 5 8 = r := by
  refine BitVec.eq_of_toNat_eq ?_
  rw [high8_toNat, spriteAddr_toNat]
  omega

theorem high3_append_spriteByte (r : BitVec 8) (k : BitVec 5) :
    (r ++ k : PortAddr).extractLsb' 10 3 = r.extractLsb' 5 3 := by
  refine BitVec.eq_of_toNat_eq ?_
  rw [high3_toNat, spriteAddr_toNat, BitVec.extractLsb'_toNat, Nat.shiftRight_eq_div_pow]
  omega

/-- The tag that the encoder puts in front of an index selects the row in R69 and R70, and the index comes back. -/
theorem decode_encode (i : Instr) : decode (encode i) = .row i := by
  cases i
  case wrFgGfx c d | wrFgAttr c d | wrBgGfx c d | wrBgAttr c d =>
    simp [encode, decode_encodeWrite, decodeWrite, high3_append, cell_append]
  case wrSprPri k d | wrSprSec k d =>
    simp [encode, decode_encodeWrite, decodeWrite, high3_append_spriteByte, high8_append, spriteByte_append]
  case wrScroll d | wrCtrl d => exact decode_encodeWrite _ d
  case rdFgGfx c | rdFgAttr c | rdBgGfx c | rdBgAttr c =>
    simp [encode, decode_encodeRead, decodeRead, high3_append, cell_append]
  case rdSprPri k | rdSprSec k =>
    simp [encode, decode_encodeRead, decodeRead, high3_append_spriteByte, high8_append, spriteByte_append]
  case renderFrame | paletteBuild | reset => decide

/-- Settles O6, row by row: a WRITE's, a READ's and a STROBE's fields come back from its word. -/
theorem decodeOfEncodeIsIdentity : Obligations.DecodeOfEncodeIsIdentity := decode_encode

/-! ### The port address of a row (R46), as its word and its decoding have it -/

/-- The READ of a byte of a tile cell (R104 to R107). -/
def tileRead : LayerId → Plane → BitVec 10 → Instr
  | .fg, .gfx => .rdFgGfx
  | .fg, .attr => .rdFgAttr
  | .bg, .gfx => .rdBgGfx
  | .bg, .attr => .rdBgAttr

/-- The READ of a byte of a sprite bank (R141, R142). -/
def spriteRead : Bank → BitVec 5 → Instr
  | .pri => .rdSprPri
  | .sec => .rdSprSec

/-- The tile rows' tag in front of a cell index is the port address of the cell's byte. -/
theorem encode_tileWrite {a : PortAddr} {L : LayerId} {p : Plane} {c : BitVec 10}
    (ha : a.toNat = (tileRegion L p).base + c.toNat) (d : Byte) : encode (tileWrite L p c d) = encodeWrite a d := by
  refine BitVec.eq_of_toNat_eq ?_
  rw [encodeWrite_toNat, ha]
  cases L <;> cases p <;> rw [tileWrite, encode, encodeWrite_toNat, cellAddr_toNat] <;> rfl

theorem encode_spriteWrite {a : PortAddr} {b : Bank} {k : BitVec 5}
    (ha : a.toNat = (spriteRegion b).base + k.toNat) (d : Byte) : encode (spriteWrite b k d) = encodeWrite a d := by
  refine BitVec.eq_of_toNat_eq ?_
  rw [encodeWrite_toNat, ha]
  cases b <;> rw [spriteWrite, encode, encodeWrite_toNat, spriteAddr_toNat] <;> rfl

theorem encode_tileRead {a : PortAddr} {L : LayerId} {p : Plane} {c : BitVec 10}
    (ha : a.toNat = (tileRegion L p).base + c.toNat) : encode (tileRead L p c) = encodeRead a := by
  refine BitVec.eq_of_toNat_eq ?_
  rw [encodeRead_toNat, ha]
  cases L <;> cases p <;> rw [tileRead, encode, encodeRead_toNat, cellAddr_toNat] <;> rfl

theorem encode_spriteRead {a : PortAddr} {b : Bank} {k : BitVec 5}
    (ha : a.toNat = (spriteRegion b).base + k.toNat) : encode (spriteRead b k) = encodeRead a := by
  refine BitVec.eq_of_toNat_eq ?_
  rw [encodeRead_toNat, ha]
  cases b <;> rw [spriteRead, encode, encodeRead_toNat, spriteAddr_toNat] <;> rfl

theorem DecodedWrite.encode_eq {a : PortAddr} {d : Byte} {i : Instr} (h : DecodedWrite a d (.row i)) :
    encode i = encodeWrite a d := by
  cases h
  case tile L p c ha => exact encode_tileWrite ha d
  case sprite b k ha => exact encode_spriteWrite ha d
  case scroll ha => exact congrArg (encodeWrite · d) (BitVec.eq_of_toNat_eq ha.symm)
  case ctrl ha => exact congrArg (encodeWrite · d) (BitVec.eq_of_toNat_eq ha.symm)

/-- `DecodedRead a x`: `x` is what a READ of `a` may decode to. The rows of R70's table, each with the address of the
byte it reads, and the addresses that have none. -/
inductive DecodedRead (a : PortAddr) : Decoded → Prop
  | tile (L p) (c : BitVec 10) (ha : a.toNat = (tileRegion L p).base + c.toNat) :
      DecodedRead a (.row (tileRead L p c))
  | sprite (b) (k : BitVec 5) (ha : a.toNat = (spriteRegion b).base + k.toNat) :
      DecodedRead a (.row (spriteRead b k))
  | noEffect (ha : 0x1040 ≤ a.toNat) : DecodedRead a (.noEffectRead a)

theorem decodedRead (a : PortAddr) : DecodedRead a (decodeRead a) := by
  rw [decodeRead_nat]
  split_ifs with h1 h2 h3 h4 h5 h6
  · exact .tile .fg .gfx _ (by rw [cell_toNat, tileRegion, Region.base]; omega)
  · exact .tile .fg .attr _ (by rw [cell_toNat, tileRegion, Region.base]; omega)
  · exact .tile .bg .gfx _ (by rw [cell_toNat, tileRegion, Region.base]; omega)
  · exact .tile .bg .attr _ (by rw [cell_toNat, tileRegion, Region.base]; omega)
  · exact .sprite .pri _ (by rw [spriteByte_toNat, spriteRegion, Region.base]; omega)
  · exact .sprite .sec _ (by rw [spriteByte_toNat, spriteRegion, Region.base]; omega)
  · exact .noEffect (by omega)

theorem DecodedRead.encode_eq {a : PortAddr} {i : Instr} (h : DecodedRead a (.row i)) : encode i = encodeRead a := by
  cases h
  case tile L p c ha => exact encode_tileRead ha
  case sprite b k ha => exact encode_spriteRead ha

/-! ### What a word decodes to (R77) -/

/-- A STROBE word with bits 21:2 zero is the encoding of its code. -/
theorem eq_encodeStrobe {w : Word} (hclass : w.extractLsb' 22 2 = 0b10#2) (hzero : w.extractLsb' 2 20 = 0#20) :
    w = encodeStrobe (w.extractLsb' 0 2) := by
  have h2 := (cls_iff w 2 (by decide)).1 hclass
  rw [strobeBits_iff] at hzero
  refine BitVec.eq_of_toNat_eq ?_
  rw [encodeStrobe_toNat, strobeCode_toNat]
  omega

theorem decode_of_reserved {w : Word} (h : ReservedWord w) : ∃ e, decode w = .refused e := by
  by_cases h11 : Word.cls w = 0b11#2
  · exact ⟨_, if_pos h11⟩
  by_cases h21 : w.getLsbD 21 = true
  · exact ⟨.bit21, by rw [decode, if_neg h11, if_pos h21]⟩
  rw [decode_of_bit21_zero h11 (Bool.eq_false_iff.2 h21)]
  obtain h | h | ⟨hclass, h⟩ | ⟨hclass, h⟩ := h
  · exact absurd h h11
  · exact absurd h h21
  · exact ⟨.strobeBits, by rw [hclass]; exact if_pos h⟩
  · rw [hclass]
    by_cases hzero : w.extractLsb' 2 20 = 0#20
    · exact ⟨.strobeCode, by rw [eq_encodeStrobe hclass hzero, h]; rfl⟩
    · exact ⟨.strobeBits, if_pos hzero⟩

/-- `DecodedWord w x`: `x` is what the word `w` may decode to, by the kind of the word. -/
inductive DecodedWord (w : Word) : Decoded → Prop
  | write (a x) (hw : IsWriteTo w a) (hx : DecodedWrite a (Word.data w) x) : DecodedWord w x
  | read (a x) (hr : IsReadOf w a) (hx : DecodedRead a x) : DecodedWord w x
  | strobe (i) (hclass : w.extractLsb' 22 2 = 0b10#2) (hw : encode i = w) : DecodedWord w (.row i)
  | refused (e) (h : ReservedWord w) : DecodedWord w (.refused e)

theorem decodedWord (w : Word) : DecodedWord w (decode w) := by
  by_cases h : ReservedWord w
  · obtain ⟨e, he⟩ := decode_of_reserved h
    rw [he]
    exact .refused e h
  simp only [ReservedWord, not_or, not_and, Bool.not_eq_true, ne_eq, not_not] at h
  obtain ⟨hnot11, hbit, hzero, hcode⟩ := h
  obtain hclass | hclass | hclass | hclass := twoBits_cases (w.extractLsb' 22 2)
  · have hw : IsWriteTo w _ := ⟨hclass, hbit, rfl⟩
    rw [decode_of_isWriteTo hw]
    exact .write _ _ hw (decodedWrite _ _)
  · have hr : IsReadOf w _ := ⟨hclass, hbit, rfl⟩
    rw [decode_of_isReadOf hr]
    exact .read _ _ hr (decodedRead _)
  · have strobe (i : Instr) (hi : encode i = w) : DecodedWord w (decode w) := by
      rw [← hi, decode_encode, hi]
      exact .strobe i hclass hi
    have hw := eq_encodeStrobe hclass (hzero hclass)
    obtain hs | hs | hs | hs := twoBits_cases (w.extractLsb' 0 2)
    · exact strobe .renderFrame (by rw [hw, hs, encode])
    · exact strobe .paletteBuild (by rw [hw, hs, encode])
    · exact strobe .reset (by rw [hw, hs, encode])
    · exact absurd hs (hcode hclass)
  · exact absurd hclass hnot11

theorem decodedWord_of_decode {w : Word} {x : Decoded} (h : decode w = x) : DecodedWord w x :=
  h ▸ decodedWord w

/-- Settles O7, by the kind of the word: only a READ's word has bits that its row does not give back. -/
theorem encodeOfDecodedWord : Obligations.EncodeOfDecodedWord := by
  intro w i hd
  cases decodedWord_of_decode hd
  case write a hw hx =>
    obtain ⟨hclass, -⟩ := id hw
    rw [if_neg (by rw [hclass]; decide), hx.encode_eq, encodeWrite_of_isWriteTo hw]
  case read a hr hx =>
    obtain ⟨hclass, -⟩ := id hr
    rw [if_pos hclass, hx.encode_eq, encodeRead_of_isReadOf hr]
  case strobe hclass hw => rw [if_neg (by rw [hclass]; decide), hw]

theorem refused_iff (w : Word) : (∃ e, decode w = .refused e) ↔ ReservedWord w := by
  refine ⟨fun ⟨e, hd⟩ => ?_, decode_of_reserved⟩
  cases decodedWord_of_decode hd
  case refused h => exact h
  case write hx => cases hx
  case read hx => cases hx

/-- Settles O9: the step performs what the decoder answers, which for a reserved word is its refusal. -/
theorem reservedWordsAreRefused : Obligations.ReservedWordsAreRefused := by
  intro s r rest h
  obtain ⟨e, he⟩ := decode_of_reserved h
  exact ⟨e, he, by rw [step_cons rfl, he, perform]⟩

theorem unmappedWrite_iff (w : Word) (a : PortAddr) (d : Byte) :
    decode w = .unmappedWrite a d ↔ IsWriteTo w a ∧ w.extractLsb' 0 8 = d ∧ 0x1042 ≤ a.toNat := by
  refine ⟨fun hd => ?_, fun ⟨hw, hdata, ha⟩ => ?_⟩
  · cases decodedWord_of_decode hd
    case write hw hx =>
      cases hx
      case unmapped ha => exact ⟨hw, rfl, ha⟩
    case read hx => cases hx
  · rw [decode_of_isWriteTo hw, decodeWrite_of_ge ha, Word.data, hdata]

theorem noEffectRead_iff (w : Word) (a : PortAddr) :
    decode w = .noEffectRead a ↔ IsReadOf w a ∧ 0x1040 ≤ a.toNat := by
  refine ⟨fun hd => ?_, fun ⟨hr, ha⟩ => ?_⟩
  · cases decodedWord_of_decode hd
    case write hx => cases hx
    case read hr hx =>
      cases hx
      case noEffect ha => exact ⟨hr, ha⟩
  · rw [decode_of_isReadOf hr, decodeRead_of_ge ha]

/-! ### The rows of the opcode table as ranges of word numbers -/

/-- The number of a row's last word: its pattern with every bit set that the mask leaves out. -/
def lastWord (r : TableRow) : Nat := r.pattern.toNat + (~~~ r.mask).toNat

/-- Each mask of the table leaves out some number `n` of low bits, which its pattern has 0. -/
theorem mask_of_mem {r : TableRow} (hr : r ∈ opcodeTable) : ∃ n ∈ [0, 8, 13, 18],
    r.mask.toNat = (2 ^ (24 - n) - 1) * 2 ^ n ∧ (~~~ r.mask).toNat + 1 = 2 ^ n ∧ 2 ^ n ∣ r.pattern.toNat := by
  revert r
  decide

theorem matches_iff {r : TableRow} (hr : r ∈ opcodeTable) (w : Word) :
    w &&& r.mask = r.pattern ↔ r.pattern.toNat ≤ w.toNat ∧ w.toNat ≤ lastWord r := by
  obtain ⟨n, hn, hmask, hlast, v, hpattern⟩ := mask_of_mem hr
  have hle : n ≤ 24 := (by decide : ∀ n ∈ [0, 8, 13, 18], n ≤ 24) n hn
  have hpos : 0 < 2 ^ n := Nat.two_pow_pos n
  rw [and_mask_eq_iff w n v _ _ hle hmask (by rw [hpattern, Nat.mul_comm]), Nat.div_eq_iff hpos, lastWord, hpattern,
    Nat.mul_comm]
  omega

/-- The rows stand in the table in the order of their words. -/
theorem rows_increase : opcodeTable.Pairwise fun r q => lastWord r < q.pattern.toNat := by decide

/-- No word matches both rows. -/
def Apart (r q : TableRow) : Prop := ∀ w : Word, ¬ (w &&& r.mask = r.pattern ∧ w &&& q.mask = q.pattern)

theorem rows_apart : opcodeTable.Pairwise Apart := by
  refine rows_increase.imp_of_mem fun hr hq hlt w => ?_
  rw [matches_iff hr, matches_iff hq]
  omega

theorem row_unique {w : Word} {r q : TableRow} (hr : r ∈ opcodeTable) (hq : q ∈ opcodeTable)
    (hwr : w &&& r.mask = r.pattern) (hwq : w &&& q.mask = q.pattern) : r = q := by
  have hsymm : Std.Symm Apart := ⟨fun _ _ h w hw => h w hw.symm⟩
  by_contra hne
  exact rows_apart.forall hr hq hne w ⟨hwr, hwq⟩

/-! ### A word matches the row that it decodes to, and no other -/

theorem tableRowOf : ∀ i : Instr, Laws.TableRowOf.Statement i
  | .wrFgGfx c d => Laws.TableRowOf.wrFgGfx c d
  | .wrFgAttr c d => Laws.TableRowOf.wrFgAttr c d
  | .wrBgGfx c d => Laws.TableRowOf.wrBgGfx c d
  | .wrBgAttr c d => Laws.TableRowOf.wrBgAttr c d
  | .wrSprPri k d => Laws.TableRowOf.wrSprPri k d
  | .wrSprSec k d => Laws.TableRowOf.wrSprSec k d
  | .wrScroll d => Laws.TableRowOf.wrScroll d
  | .wrCtrl d => Laws.TableRowOf.wrCtrl d
  | .rdFgGfx c => Laws.TableRowOf.rdFgGfx c
  | .rdFgAttr c => Laws.TableRowOf.rdFgAttr c
  | .rdBgGfx c => Laws.TableRowOf.rdBgGfx c
  | .rdBgAttr c => Laws.TableRowOf.rdBgAttr c
  | .rdSprPri k => Laws.TableRowOf.rdSprPri k
  | .rdSprSec k => Laws.TableRowOf.rdSprSec k
  | .renderFrame => Laws.TableRowOf.renderFrame
  | .paletteBuild => Laws.TableRowOf.paletteBuild
  | .reset => Laws.TableRowOf.reset

theorem encode_matches_row (i : Instr) : encode i &&& i.row.mask = i.row.pattern := (tableRowOf i).1

theorem row_mem_opcodeTable (i : Instr) : i.row ∈ opcodeTable := (tableRowOf i).2

/-- A READ's row asks nothing of the ignored bits 7:0 (R66). -/
theorem DecodedRead.mask_eq {a : PortAddr} {i : Instr} (h : DecodedRead a (.row i)) :
    0xFFFF00#24 &&& i.row.mask = i.row.mask := by
  cases h
  case tile L p c ha =>
    have hmask : (tileRead L p c).row.mask = 0xFC0000#24 := by cases L <;> cases p <;> rfl
    rw [hmask]
    decide
  case sprite b k ha =>
    have hmask : (spriteRead b k).row.mask = 0xFFE000#24 := by cases b <;> rfl
    rw [hmask]
    decide

theorem matches_row_of_decode {w : Word} {i : Instr} (hd : decode w = .row i) :
    w &&& i.row.mask = i.row.pattern := by
  cases decodedWord_of_decode hd
  case write hw hx => rw [← encode_matches_row, hx.encode_eq, encodeWrite_of_isWriteTo hw]
  case read hr hx =>
    rw [← encode_matches_row, hx.encode_eq, encodeRead_of_isReadOf hr, BitVec.and_assoc, hx.mask_eq]
  case strobe hw => rw [← encode_matches_row, hw]

theorem DecodedWrite.isRow {a : PortAddr} {d : Byte} {x : Decoded} (h : DecodedWrite a d x) (ha : a.toNat < 0x1042) :
    ∃ i, x = .row i := by
  cases h
  case unmapped hge => omega
  all_goals exact ⟨_, rfl⟩

theorem DecodedRead.isRow {a : PortAddr} {x : Decoded} (h : DecodedRead a x) (ha : a.toNat < 0x1040) :
    ∃ i, x = .row i := by
  cases h
  case noEffect hge => omega
  all_goals exact ⟨_, rfl⟩

/-- The rows lie in three ranges: the mapped WRITEs, the READs of RAM and the three STROBEs (R69 to R71). -/
theorem row_range {r : TableRow} (hr : r ∈ opcodeTable) :
    lastWord r < 0x104200 ∨ (0x400000 ≤ r.pattern.toNat ∧ lastWord r < 0x504000) ∨
      (0x800000 ≤ r.pattern.toNat ∧ lastWord r < 0x800003) := by
  revert r
  decide

theorem decode_isRow_of_matches {w : Word} {r : TableRow} (hr : r ∈ opcodeTable) (hw : w &&& r.mask = r.pattern) :
    ∃ i, decode w = .row i := by
  obtain ⟨hlow, hhigh⟩ := (matches_iff hr w).1 hw
  have haddr := addr_toNat w
  obtain hrange | ⟨hge, hlt⟩ | ⟨hge, hlt⟩ := row_range hr
  · rw [decode_of_isWriteTo (isWriteTo_iff.2 (by omega : _ = (Word.addr w).toNat))]
    exact (decodedWrite _ _).isRow (by omega)
  · rw [decode_of_isReadOf (isReadOf_iff.2 (by omega : _ = 0x4000 + (Word.addr w).toNat))]
    exact (decodedRead _).isRow (by omega)
  · obtain h | h | h : w.toNat = 0x800000 ∨ w.toNat = 0x800001 ∨ w.toNat = 0x800002 := by omega
    · exact ⟨.renderFrame, BitVec.eq_of_toNat_eq (y := encode .renderFrame) h ▸ decode_encode _⟩
    · exact ⟨.paletteBuild, BitVec.eq_of_toNat_eq (y := encode .paletteBuild) h ▸ decode_encode _⟩
    · exact ⟨.reset, BitVec.eq_of_toNat_eq (y := encode .reset) h ▸ decode_encode _⟩

theorem matches_iff_decode {r : TableRow} (hr : r ∈ opcodeTable) (w : Word) :
    w &&& r.mask = r.pattern ↔ ∃ i, decode w = .row i ∧ i.row = r := by
  refine ⟨fun hw => ?_, fun ⟨i, hd, hi⟩ => hi ▸ matches_row_of_decode hd⟩
  obtain ⟨i, hd⟩ := decode_isRow_of_matches hr hw
  exact ⟨i, hd, row_unique (row_mem_opcodeTable i) hr (matches_row_of_decode hd) hw⟩

/-- Settles O8: the rows are disjoint ranges, every word of which decodes to a row; the other results are read off the
kind of the word. -/
theorem decoderHasFourResults : Obligations.DecoderHasFourResults :=
  ⟨fun w _ hr => matches_iff_decode hr w, fun _ i _ => row_mem_opcodeTable i, rows_apart, unmappedWrite_iff,
    noEffectRead_iff, refused_iff⟩

/-! ### The assembler's lines (R78, R79) -/

theorem words_of_wellFormed {l : AsmLine} (h : l.wellFormed = true) :
    l.words = some (l.wordNumbers.map (BitVec.ofNat 24)) := if_pos h

/-- The line of one transaction, whose word it gives as a number. -/
theorem words_eq_singleton {l : AsmLine} {w : Word} (h : l.wellFormed = true) (hw : l.wordNumbers = [w.toNat]) :
    l.words = some [w] := by
  rw [words_of_wellFormed h, hw, List.map_singleton, BitVec.ofNat_toNat, BitVec.setWidth_eq]

/-- The word bases of R78 are the WRITE words of the regions' first bytes (R46). -/
theorem tileWordBase_eq (L : LayerId) (p : Plane) : tileWordBase L p = (tileRegion L p).base * 0x100 := by
  cases L <;> cases p <;> rfl

theorem spriteWordBase_eq (b : Bank) : spriteWordBase b = (spriteRegion b).base * 0x100 := by
  cases b <;> rfl

/-- The port address of byte `i` of a region. -/
theorem toNat_portAddr {r : Region} {i : Nat} (hi : i < r.size) :
    (BitVec.ofNat 13 (r.base + i)).toNat = r.base + i := by
  have hlt := r.addr_lt hi
  rw [BitVec.toNat_ofNat]
  omega

theorem slot_byte (k : BitVec 5) : 4 * (slotOf k).toNat + (byteOf k).toNat = k.toNat := by
  have hk := k.isLt
  simp only [slotOf, byteOf, BitVec.extractLsb'_toNat, Nat.shiftRight_eq_div_pow]
  omega

theorem wrTile_words (L : LayerId) (p : Plane) (c : BitVec 10) (d : Byte) :
    (AsmLine.wrTile L p c.toNat d.toNat).words = some [encode (tileWrite L p c d)] := by
  refine words_eq_singleton (by simp [AsmLine.wellFormed, c.isLt, d.isLt]) ?_
  have ha := toNat_portAddr (r := tileRegion L p) (i := c.toNat) (by simpa using c.isLt)
  rw [encode_tileWrite ha, encodeWrite_toNat, ha, Nat.add_mul, ← tileWordBase_eq, AsmLine.wordNumbers]

theorem rdTile_words (L : LayerId) (p : Plane) (c : BitVec 10) :
    (AsmLine.rdTile L p c.toNat).words = some [encode (tileRead L p c)] := by
  refine words_eq_singleton (by simp [AsmLine.wellFormed, c.isLt]) ?_
  have ha := toNat_portAddr (r := tileRegion L p) (i := c.toNat) (by simpa using c.isLt)
  rw [encode_tileRead ha, encodeRead_toNat, ha, Nat.add_mul, ← tileWordBase_eq, AsmLine.wordNumbers, Nat.add_assoc]

theorem wrSprite_words (b : Bank) (k : BitVec 5) (d : Byte) :
    (AsmLine.wrSprite b (slotOf k).toNat (byteOf k).toNat d.toNat).words = some [encode (spriteWrite b k d)] := by
  refine words_eq_singleton (by simp [AsmLine.wellFormed, (slotOf k).isLt, (byteOf k).isLt, d.isLt]) ?_
  have ha := toNat_portAddr (r := spriteRegion b) (i := k.toNat) (by simpa using k.isLt)
  rw [encode_spriteWrite ha, encodeWrite_toNat, ha, Nat.add_mul, ← spriteWordBase_eq, AsmLine.wordNumbers, slot_byte]

theorem rdSprite_words (b : Bank) (k : BitVec 5) :
    (AsmLine.rdSprite b (slotOf k).toNat (byteOf k).toNat).words = some [encode (spriteRead b k)] := by
  refine words_eq_singleton (by simp [AsmLine.wellFormed, (slotOf k).isLt, (byteOf k).isLt]) ?_
  have ha := toNat_portAddr (r := spriteRegion b) (i := k.toNat) (by simpa using k.isLt)
  rw [encode_spriteRead ha, encodeRead_toNat, ha, Nat.add_mul, ← spriteWordBase_eq, AsmLine.wordNumbers, slot_byte,
    Nat.add_assoc]

theorem wrScroll_words (d : Byte) : (AsmLine.wrScroll d.toNat).words = some [encode (.wrScroll d)] :=
  words_eq_singleton (by simp [AsmLine.wellFormed, d.isLt]) (by rw [encode, encodeWrite_toNat]; rfl)

theorem wrCtrl_words (d : Byte) : (AsmLine.wrCtrl d.toNat).words = some [encode (.wrCtrl d)] :=
  words_eq_singleton (by simp [AsmLine.wellFormed, d.isLt]) (by rw [encode, encodeWrite_toNat]; rfl)

theorem wr_words (a : PortAddr) (d : Byte) : (AsmLine.wr a.toNat d.toNat).words = some [encodeWrite a d] :=
  words_eq_singleton (by simp [AsmLine.wellFormed, a.isLt, d.isLt]) (by rw [encodeWrite_toNat, AsmLine.wordNumbers])

theorem rd_words (a : PortAddr) : (AsmLine.rd a.toNat).words = some [encodeRead a] :=
  words_eq_singleton (by simp [AsmLine.wellFormed, a.isLt]) (by rw [encodeRead_toNat, AsmLine.wordNumbers])

theorem tile_words (L : LayerId) (c : BitVec 10) (g t : Byte) : (AsmLine.tile L c.toNat g.toNat t.toNat).words =
    (do return (← (AsmLine.wrTile L .gfx c.toNat g.toNat).words) ++
      (← (AsmLine.wrTile L .attr c.toNat t.toNat).words)) := by
  have hc := c.isLt
  have words (p : Plane) (d : Byte) := words_of_wellFormed (l := .wrTile L p c.toNat d.toNat)
    (by simp [AsmLine.wellFormed, hc, d.isLt])
  rw [words .gfx, words .attr, words_of_wellFormed (by simp [AsmLine.wellFormed, hc, g.isLt, t.isLt])]
  rfl

theorem sprite_words (b : Bank) (s : BitVec 3) (y m a x : Byte) :
    (AsmLine.sprite b s.toNat y.toNat m.toNat a.toNat x.toNat).words =
      (do return (← (AsmLine.wrSprite b s.toNat 0 y.toNat).words) ++
        (← (AsmLine.wrSprite b s.toNat 1 m.toNat).words) ++
        (← (AsmLine.wrSprite b s.toNat 2 a.toNat).words) ++
        (← (AsmLine.wrSprite b s.toNat 3 x.toNat).words)) := by
  have hs := s.isLt
  have words (j : Nat) (hj : j < 4) (d : Byte) := words_of_wellFormed (l := .wrSprite b s.toNat j d.toNat)
    (by simp [AsmLine.wellFormed, hs, hj, d.isLt])
  rw [words 0 (by decide), words 1 (by decide), words 2 (by decide), words 3 (by decide),
    words_of_wellFormed (by simp [AsmLine.wellFormed, hs, y.isLt, m.isLt, a.isLt, x.isLt])]
  rfl

theorem spriteZero_words (b : Bank) (s : BitVec 3) :
    (AsmLine.spriteZero b s.toNat).words = (AsmLine.sprite b s.toNat 0 0 0 0).words := by
  have hs := s.isLt
  rw [words_of_wellFormed (by simp [AsmLine.wellFormed, hs]), words_of_wellFormed (by simp [AsmLine.wellFormed, hs])]
  rfl

theorem ctrl_words (nmi flip rbank : BitVec 1) (prio : BitVec 2) :
    (AsmLine.ctrl nmi.toNat flip.toNat prio.toNat rbank.toNat).words =
      (AsmLine.wrCtrl (nmi.toNat + flip.toNat * 2 + prio.toNat * 16 + rbank.toNat * 64)).words := by
  have hctrl : (AsmLine.ctrl nmi.toNat flip.toNat prio.toNat rbank.toNat).wellFormed = true := by
    simp only [AsmLine.wellFormed, Bool.and_eq_true, decide_eq_true_eq]
    omega
  have hbyte : (AsmLine.wrCtrl (nmi.toNat + flip.toNat * 2 + prio.toNat * 16 + rbank.toNat * 64)).wellFormed = true :=
    decide_eq_true (by omega)
  rw [words_of_wellFormed hctrl, words_of_wellFormed hbyte]
  rfl

theorem attrByte_lt (b3 : BitVec 3) (f : BitVec 1) (col : BitVec 4) :
    attrByte b3.toNat f.toNat col.toNat < 256 := by
  rw [attrByte]
  omega

theorem clip_le (c : Clip) : c.minx.val ≤ c.maxx.val ∧ c.miny.val ≤ c.maxy.val :=
  ⟨Fin.le_def.1 c.x_le, Fin.le_def.1 c.y_le⟩

/-- Four numbers that R16 admits are the clip of a RENDER_FRAME line with these operands. -/
theorem clip_ofNats (c : Clip) : Clip.ofNats? c.minx c.maxx c.miny c.maxy = some c := by
  obtain ⟨hx, hy⟩ := clip_le c
  exact dif_pos ⟨hx, by omega, hy, by omega⟩

theorem renderFrameIn_words (c : Clip) :
    (AsmLine.renderFrameIn c.minx c.maxx c.miny c.maxy).words = some [encode .renderFrame] := by
  have hle := clip_le c
  refine words_eq_singleton ?_ rfl
  simp only [AsmLine.wellFormed, clipWellFormed, Bool.and_eq_true, decide_eq_true_eq]
  omega

theorem renderFrameIn_clip (c : Clip) : (AsmLine.renderFrameIn c.minx c.maxx c.miny c.maxy).clip = c := by
  rw [AsmLine.clip, clip_ofNats, Option.getD_some]

/-- Settles O10, line by line; the lines without operands are their one word. -/
theorem assemblerLinesEncode : Obligations.AssemblerLinesEncode :=
  ⟨fun c d => ⟨wrTile_words .fg .gfx c d, wrTile_words .fg .attr c d, wrTile_words .bg .gfx c d,
      wrTile_words .bg .attr c d⟩,
    fun c => ⟨rdTile_words .fg .gfx c, rdTile_words .fg .attr c, rdTile_words .bg .gfx c, rdTile_words .bg .attr c⟩,
    fun k d => ⟨wrSprite_words .pri k d, wrSprite_words .sec k d, rdSprite_words .pri k, rdSprite_words .sec k⟩,
    fun d => ⟨wrScroll_words d, wrCtrl_words d⟩, fun a d => ⟨wr_words a d, rd_words a⟩, tile_words, sprite_words,
    spriteZero_words, ctrl_words, fun b3 f col => ⟨rfl, attrByte_lt b3 f col⟩,
    ⟨words_eq_singleton rfl rfl, rfl, rfl, rfl, rfl⟩, fun c => ⟨renderFrameIn_words c, renderFrameIn_clip c⟩,
    words_eq_singleton rfl rfl, words_eq_singleton rfl rfl, rfl, words_eq_singleton rfl rfl⟩

/-! ### Words of the spec's vectors (L2.2) -/

/-- Settles O5: each word is the encoding of its transaction. -/
theorem specWordsDecode : Obligations.SpecWordsDecode :=
  ⟨decode_encode (.wrFgGfx 33 0x12), decode_encode (.wrFgAttr 33 0xB5), decode_encode (.wrBgGfx 0 0xFF),
    decode_encode (.wrBgAttr 1023 0x10), decode_encode (.wrSprPri 11 0xF8), decode_encode (.wrSprSec 31 0x5C),
    decode_encode (.wrScroll 0x10), decode_encode (.wrCtrl 0x32), decode_encode (.rdFgGfx 5),
    decode_encode (.rdBgAttr 1023), decode_encode (.rdSprSec 31), decode_encode .renderFrame,
    decode_encode .paletteBuild, decode_encode .reset⟩

end Sys2Proof.Machine
end

section
/-! PROOFS. The palette decoder: the colour decode, the pen index of an entry, the palette build, and the colours that
a render displays inside the clip (R85 to R96). -/

namespace Sys2Proof.Machine

/-! ### The palette entries (R89) -/

@[simp] theorem buildPalette_length (cfg : Config) : (buildPalette cfg).length = cfg.paletteEntries := by
  simp [buildPalette]

theorem buildPalette_getElem? {cfg : Config} {i : Nat} (hi : i < cfg.paletteEntries) :
    (buildPalette cfg)[i]? = some (rgb (promByte cfg (penIndex cfg i))) := by
  simp [buildPalette, hi, paletteEntry]

/-! ### The displayed colour inside the clip (R95) -/

/-- A layer's pens are below N whatever its cache holds, so a draw spoils no pixel. -/
theorem drawLayer_get_lt {cfg : Config} {s : State} {x y : Fin 256} (h : s.fb.get x y < cfg.paletteEntries)
    (L : LayerId) : (drawLayer cfg s L).fb.get x y < cfg.paletteEntries := by
  rw [drawLayer_fb, Frame.get_paint]
  exact getD_lt (layerInk_lt cfg _ L x y) h

theorem drawBank_get_lt {cfg : Config} {s : State} {x y : Fin 256} (h : s.fb.get x y < cfg.paletteEntries)
    (b : Bank) : (drawBank cfg s b).fb.get x y < cfg.paletteEntries := by
  rw [drawBank_get]
  split
  · exact getD_lt (bankSource_lt cfg s b x y) h
  · exact h

/-- The background has no transparent pixel, so its draw replaces whatever pen the host passed in (R116). -/
theorem drawBackground_get_lt {cfg : Config} {s : State} (h : Coherent cfg s .bg) {x y : Fin 256}
    (hin : InsidePixel s.clip x y) : (drawLayer cfg s .bg).fb.get x y < cfg.paletteEntries := by
  rw [drawLayer_get h, if_pos hin, layerSource_bg]
  exact tilePen_tilePix_lt cfg .bg _ _

/-- The background's draw comes first in R157's sequence, and the later draws keep its pixel below N. -/
theorem renderFrame_get_lt {cfg : Config} {s : State} (h : Coherent cfg s .bg) {x y : Fin 256}
    (hin : InsidePixel s.clip x y) : (renderFrame cfg s).fb.get x y < cfg.paletteEntries := by
  have background : (drawLayer cfg (s.setPhase .bg) .bg).fb.get x y < cfg.paletteEntries :=
    drawBackground_get_lt (h.congr (fun a => by simp) (by simp)) (by rwa [State.setPhase_clip])
  have layer {u : State} (hu : u.fb.get x y < cfg.paletteEntries) (p : Phase) (L : LayerId) :
      (drawLayer cfg (u.setPhase p) L).fb.get x y < cfg.paletteEntries :=
    drawLayer_get_lt (by rwa [State.setPhase_fb]) L
  have bank {u : State} (hu : u.fb.get x y < cfg.paletteEntries) (p : Phase) (b : Bank) :
      (drawBank cfg (u.setPhase p) b).fb.get x y < cfg.paletteEntries :=
    drawBank_get_lt (by rwa [State.setPhase_fb]) b
  by_cases hp : s.prio = 0#2
  · rw [renderFrame_zero cfg s hp, State.respond_fb, State.setPhase_fb, State.setPhase_fb]
    exact bank (bank (layer background _ .fg) _ .sec) _ .pri
  · rw [renderFrame_ne_zero cfg s hp, State.respond_fb, State.setPhase_fb, State.setPhase_fb]
    exact layer (bank (bank background _ (firstBank s.prio)) _ (secondBank s.prio)) _ .fg

/-- A pen that names a palette entry shows it, and not the free colour. -/
theorem palette_getElem?_eq_displayedColour (cfg : Config) {s : State} {x y : Fin 256}
    (h : s.fb.get x y < s.palette.length) : s.palette[s.fb.get x y]? = some (displayedColour cfg s x y) := by
  rw [displayedColour, List.getD_eq_getElem _ _ h, List.getElem?_eq_getElem h]

/-- Settles O31: inside the clip every pen is below N, the length of the palette that a render leaves as it was. -/
theorem displayedColourIsThePalettes : Obligations.DisplayedColourIsThePalettes := by
  intro s _ hbg hpalette
  refine ⟨renderFrame Config.device s, rfl, fun x y hin => ?_⟩
  have hpen := renderFrame_get_lt hbg hin
  refine ⟨hpen, palette_getElem?_eq_displayedColour Config.device ?_⟩
  rwa [renderFrame_palette, hpalette, buildPalette_length]

/-! ### The pen index (R88, R94) -/

theorem lowNibble_toNat (b : Byte) : (b &&& 0x0F).toNat = b.toNat % 16 := by
  rw [BitVec.toNat_and]
  exact Nat.and_two_pow_sub_one_eq_mod b.toNat 4

theorem lowNibble_or_0x10_toNat (b : Byte) : ((b &&& 0x0F) ||| 0x10).toNat = b.toNat % 16 + 16 := by
  rw [BitVec.toNat_or, lowNibble_toNat, Nat.or_comm, Nat.add_comm]
  exact (Nat.two_pow_add_eq_or_of_lt (i := 4) (Nat.mod_lt _ (by decide)) 1).symm

theorem penIndex_of_variant_a {cfg : Config} (h : cfg.variant = .a) (i : Nat) :
    penIndex cfg i = (promByte cfg (0x20 + i)).toNat % 16 + (if i < 0x100 then 0 else 16) := by
  simp only [penIndex, h]
  split
  · exact (congrArg BitVec.toNat BitVec.or_zero).trans (lowNibble_toNat _)
  · exact lowNibble_or_0x10_toNat _

theorem penIndex_of_variant_b {cfg : Config} (h : cfg.variant = .b) (i : Nat) :
    penIndex cfg i = (promByte cfg (0x20 + i)).toNat % 16 := by
  simp only [penIndex, h]
  exact lowNibble_toNat _

/-- Below 0x100 the pen index does not depend on the variant. -/
theorem penIndex_of_lt {cfg : Config} {i : Nat} (hi : i < 0x100) :
    penIndex cfg i = (promByte cfg (0x20 + i)).toNat % 16 := by
  cases h : cfg.variant
  case a => rw [penIndex_of_variant_a h, if_pos hi, Nat.add_zero]
  case b => exact penIndex_of_variant_b h i

/-- Under either variant a pen index is an offset of the PROM's colour table (R94). -/
theorem penIndex_lt (cfg : Config) (i : Nat) : penIndex cfg i < 0x20 := by
  cases h : cfg.variant
  case a => rw [penIndex_of_variant_a h]; split <;> omega
  case b => rw [penIndex_of_variant_b h]; omega

/-- R11: the PROM holds the colour table and N lookup bytes. -/
theorem prom_length_ge (cfg : Config) : 0x20 + cfg.paletteEntries ≤ cfg.prom.length := by
  have h := cfg.wf
  simp only [Params.wellFormed, Bool.and_eq_true, decide_eq_true_eq] at h
  obtain ⟨⟨⟨hprom, -⟩, -⟩, -⟩ := h
  exact hprom

theorem prom_getElem? {cfg : Config} {k : Nat} (h : k < 0x20 + cfg.paletteEntries) :
    cfg.prom[k]? = some (promByte cfg k) := by
  have hk : k < cfg.prom.length := Nat.lt_of_lt_of_le h (prom_length_ge cfg)
  rw [promByte, List.getD_eq_getElem _ _ hk, List.getElem?_eq_getElem hk]

/-- Settles O29, by the formula of each variant; both offsets are inside the PROM by R11. -/
theorem penIndexOfEachVariant : Obligations.PenIndexOfEachVariant := by
  intro cfg i hi
  refine ⟨fun ha => ?_, fun hb => ?_, prom_getElem? (by omega), prom_getElem? ?_⟩
  · rw [penIndex_of_variant_a ha]
    refine ⟨rfl, fun hlow => ?_, fun hhigh => ?_⟩
    · rw [if_pos hlow]; omega
    · rw [if_neg (by omega)]; omega
  · rw [penIndex_of_variant_b hb]
    exact ⟨rfl, by omega⟩
  · have := penIndex_lt cfg i
    omega

/-! ### The palette build (R89) -/

theorem promByte_congr {cfg cfg' : Config} (h : cfg.prom = cfg'.prom) (k : Nat) :
    promByte cfg k = promByte cfg' k := by
  rw [promByte, promByte, h]

/-- Up to 0x100 entries the palette is a function of the PROM and of N, so the variant does not show. -/
theorem buildPalette_congr {cfg cfg' : Config} (hprom : cfg.prom = cfg'.prom)
    (hn : cfg.paletteEntries = cfg'.paletteEntries) (h256 : cfg.paletteEntries ≤ 0x100) :
    buildPalette cfg = buildPalette cfg' := by
  rw [buildPalette, buildPalette, ← hn]
  refine List.map_congr_left fun i hi => ?_
  have hi256 : i < 0x100 := Nat.lt_of_lt_of_le (List.mem_range.1 hi) h256
  rw [paletteEntry, paletteEntry, penIndex_of_lt hi256, penIndex_of_lt hi256, promByte_congr hprom,
    promByte_congr hprom]

/-- Settles O30: PALETTE_BUILD, power-up and RESET run one build, and what it writes depends on the configuration
alone. -/
theorem paletteBuildWritesThePalette : Obligations.PaletteBuildWritesThePalette :=
  ⟨rfl,
    fun s => ⟨s.rebuildPalette Config.device, rfl, buildPalette_length _, fun _ hi => buildPalette_getElem? hi, rfl, rfl⟩,
    rfl,
    fun s => ⟨resetCore Config.device s, rfl, rfl⟩,
    fun _ _ => buildPalette_congr⟩

/-! ### The colour decode (R87, R93) -/

theorem bitNat_eq (b : Byte) (k : Nat) : bitNat b k = b.toNat / 2 ^ k % 2 := Nat.toNat_testBit ..

/-- The sum of a red or green field, from the number `f` that its three bits form. -/
theorem weigh_eq {b : Byte} {k f : Nat} (hf : b.toNat / 2 ^ k % 8 = f) :
    weigh b k = 0x21 * (f % 2) + 0x47 * (f / 2 % 2) + 0x97 * (f / 4) := by
  subst hf
  simp only [weigh, bitNat_eq, Nat.pow_succ, ← Nat.div_div_eq_div_mul]
  omega

theorem weighBlue_eq (b : Byte) : weighBlue b = 0x47 * (b.toNat / 64 % 2) + 0x97 * (b.toNat / 64 / 2) := by
  have := b.isLt
  simp only [weighBlue, bitNat_eq]
  omega

/-- The weights of red and green add up to 0xFF, so a byte holds every sum (R92). -/
theorem weigh_lt (b : Byte) (k : Nat) : weigh b k < 256 := by
  rw [weigh_eq rfl]
  omega

theorem weighBlue_lt (b : Byte) : weighBlue b < 256 := by
  have := b.isLt
  rw [weighBlue_eq]
  omega

/-- R93's eight values of red and green, by the field's number. -/
theorem weigh_values (b : Byte) (k : Nat) :
    [0x00#8, 0x21#8, 0x47#8, 0x68#8, 0x97#8, 0xB8#8, 0xDE#8, 0xFF#8][b.toNat / 2 ^ k % 8]? =
      some (BitVec.ofNat 8 (weigh b k)) := by
  have hf : b.toNat / 2 ^ k % 8 < 8 := Nat.mod_lt _ (by decide)
  rw [weigh_eq rfl]
  generalize b.toNat / 2 ^ k % 8 = f at hf ⊢
  revert f
  decide

/-- R93's four values of blue. -/
theorem weighBlue_values (b : Byte) :
    [0x00#8, 0x47#8, 0x97#8, 0xDE#8][b.toNat / 64]? = some (BitVec.ofNat 8 (weighBlue b)) := by
  have hf : b.toNat / 64 < 4 := by have := b.isLt; omega
  rw [weighBlue_eq]
  generalize b.toNat / 64 = f at hf ⊢
  revert f
  decide

/-- Settles O28: no sum overflows its byte, and each is the listed value of its field. -/
theorem colourDecodeIsExact : Obligations.ColourDecodeIsExact := by
  intro b
  have hblue : weighBlue b = 0x47 * bitNat b 6 + 0x97 * bitNat b 7 := by simp [weighBlue]
  refine ⟨Nat.mod_eq_of_lt (weigh_lt b 0), Nat.mod_eq_of_lt (weigh_lt b 3),
    (Nat.mod_eq_of_lt (weighBlue_lt b)).trans hblue, ?_, weigh_values b 3, weighBlue_values b⟩
  have hred := weigh_values b 0
  rwa [Nat.pow_zero, Nat.div_one] at hred

end Sys2Proof.Machine
end

section
/-! PROOFS. The tile layer store: what a tile WRITE, a tile READ and WR_SCROLL do, which transactions touch a layer's
bookkeeping and how a render refreshes it (R100 to R113), and a layer pixel from the RAM's bytes to its pen (R98, R99,
R114 to R117). -/

namespace Sys2Proof.Machine

/-! ### The tile WRITEs (R100 to R103) -/

theorem exec_tileWrite (L : LayerId) (p : Plane) (c : BitVec 10) (d : Byte) (s : State) :
    exec (tileWrite L p c d) s = .next (writeTile Config.device s L p c.toNat d) :=
  perform_tileWrite L p c d s

theorem encode_tileWrite_toNat (L : LayerId) (p : Plane) (c : BitVec 10) (d : Byte) :
    (encode (tileWrite L p c d)).toNat = ((tileRegion L p).base + c.toNat) * 0x100 + d.toNat := by
  have ha := toNat_portAddr (r := tileRegion L p) (i := c.toNat) (by simpa using c.isLt)
  rw [encode_tileWrite ha, encodeWrite_toNat, ha]

/-- The frame of a tile write: it touches the RAM and the layers' bookkeeping alone. -/
theorem writeTile_frame (cfg : Config) (s : State) (L : LayerId) (p : Plane) (c : Nat) (d : Byte) :
    writeTile cfg s L p c d =
      { s with mem := (writeTile cfg s L p c d).mem, fg := (writeTile cfg s L p c d).fg,
               bg := (writeTile cfg s L p c d).bg } := by
  cases L <;> rfl

theorem tileWriteEffect (L : LayerId) (p : Plane) (c : BitVec 10) (d : Byte) (s : State) :
    TileWriteEffect (tileWrite L p c d) L p c d s := by
  refine ⟨encode_tileWrite_toNat L p c d, _, exec_tileWrite L p c d s, ramByte_writeTile_same ..,
    fun a ha => ramByte_writeTile_other _ _ _ _ _ _ ha, fun b => ?_, ?_, ?_,
    fun M hM => writeTile_layer_other _ _ hM .., writeTile_frame ..⟩
  · rw [writeTile_layer, TileLayer.markDirty_getLsbD _ _ c.isLt]
  · rw [writeTile_layer, TileLayer.markDirty_cache]
  · rw [writeTile_layer, TileLayer.markDirty_rederive]

/-- Settles O13: one effect for every layer and plane. -/
theorem tileWritesStoreAndMarkTheirCell : Obligations.TileWritesStoreAndMarkTheirCell :=
  fun c d s => ⟨tileWriteEffect .fg .gfx c d s, tileWriteEffect .fg .attr c d s, tileWriteEffect .bg .gfx c d s,
    tileWriteEffect .bg .attr c d s⟩

/-! ### The tile READs (R104 to R107) and WR_SCROLL (R108) -/

theorem exec_tileRead (L : LayerId) (p : Plane) (c : BitVec 10) (s : State) :
    exec (tileRead L p c) s = .next (readRam Config.device s (tileRegion L p) c.toNat) := by
  cases L <;> cases p <;> rfl

theorem encode_tileRead_toNat (L : LayerId) (p : Plane) (c : BitVec 10) :
    (encode (tileRead L p c)).toNat = 0x400000 + ((tileRegion L p).base + c.toNat) * 0x100 := by
  have ha := toNat_portAddr (r := tileRegion L p) (i := c.toNat) (by simpa using c.isLt)
  rw [encode_tileRead ha, encodeRead_toNat, ha]

theorem ramReadEffect_tileRead (L : LayerId) (p : Plane) (c : BitVec 10) (s : State) :
    RamReadEffect (tileRead L p c) (tileRegion L p) c.toNat s :=
  ⟨encode_tileRead_toNat L p c, exec_tileRead L p c s⟩

/-- At power-up no byte is listed, so each reads as its draw (R186). -/
theorem memRead_reset (r : Region) (i : Nat) :
    memRead Config.device State.reset r i = Config.device.powerUpByte (r.base + i) :=
  readCells_nil

/-- Settles O14: one effect for every layer and plane, and the power-up draw of every RAM byte. -/
theorem tileReadsReturnTheByte : Obligations.TileReadsReturnTheByte :=
  ⟨fun c s => ⟨ramReadEffect_tileRead .fg .gfx c s, ramReadEffect_tileRead .fg .attr c s,
    ramReadEffect_tileRead .bg .gfx c s, ramReadEffect_tileRead .bg .attr c s⟩, fun _ _ _ => memRead_reset _ _⟩

/-- Settles O15: the arm of WR_SCROLL is `State.setScroll`, and the word 0x504000 is a READ of SCROLL's address. -/
theorem writeScrollSetsScroll : Obligations.WriteScrollSetsScroll :=
  ⟨fun d _ => ⟨encodeWrite_toNat 0x1040#13 d, rfl⟩, (noEffectRead_iff _ _).2 (by decide)⟩

/-! ### What a transaction other than a render does to a layer's bookkeeping (R110, R113) -/

theorem writtenCell_tileWrite_other {L M : LayerId} (h : L ≠ M) (p : Plane) (c : BitVec 10) (d : Byte) :
    writtenCell L (tileWrite M p c d) = none := by
  cases L <;> cases M
  case fg.fg | bg.bg => exact absurd rfl h
  case fg.bg | bg.fg => cases p <;> rfl

theorem writeTile_layer_eq (cfg : Config) (s : State) (M : LayerId) (p : Plane) (c : BitVec 10) (d : Byte)
    (L : LayerId) : (writeTile cfg s M p c.toNat d).layer L =
      (writtenCell L (tileWrite M p c d)).elim (s.layer L) (s.layer L).markDirty := by
  by_cases hL : L = M
  · subst hL
    rw [writeTile_layer, writtenCell_tileWrite, Option.elim_some]
  · rw [writeTile_layer_other cfg s hL, writtenCell_tileWrite_other hL, Option.elim_none]

/-- A transaction other than a render marks the cell that it writes, if it writes one, and does nothing else to the
layer's bookkeeping. -/
theorem exec_layer {i : Instr} {s t : State} (hi : i ≠ .renderFrame) (h : exec i s = .next t) (L : LayerId) :
    t.layer L = (writtenCell L i).elim (s.layer L) (s.layer L).markDirty := by
  cases i <;> obtain rfl := Host.Outcome.next.inj h
  case renderFrame => exact absurd rfl hi
  case wrFgGfx c d => exact writeTile_layer_eq _ s .fg .gfx c d L
  case wrFgAttr c d => exact writeTile_layer_eq _ s .fg .attr c d L
  case wrBgGfx c d => exact writeTile_layer_eq _ s .bg .gfx c d L
  case wrBgAttr c d => exact writeTile_layer_eq _ s .bg .attr c d L
  -- the others write no tile cell
  all_goals cases L <;> rfl

/-- Settles O19, by what a transaction does to a layer of which it writes no cell. -/
theorem onlyTileWritesAndRendersTouchTheCache : Obligations.OnlyTileWritesAndRendersTouchTheCache := by
  intro i s t L hi hcell hexec
  rw [exec_layer hi hexec, hcell, Option.elim_none]

theorem lt_of_writtenCell {L : LayerId} {i : Instr} {c : Nat} (h : writtenCell L i = some c) : c < 1024 := by
  unfold writtenCell at h
  split at h
  case h_5 => cases h
  all_goals
    obtain rfl := Option.some.inj h
    exact BitVec.isLt _

/-- `Marked l l' cells`: the bookkeeping `l'` is `l` with these cells marked dirty, and nothing re-derived. -/
structure Marked (l l' : TileLayer) (cells : List Nat) : Prop where
  cache : l'.cache = l.cache
  rederive : l'.rederive = l.rederive
  dirty : ∀ c : Nat, l'.dirty.getLsbD c = (l.dirty.getLsbD c || decide (c ∈ cells))

theorem Marked.refl (l : TileLayer) : Marked l l [] := ⟨rfl, rfl, by simp⟩

theorem Marked.markDirty (l : TileLayer) {c : Nat} (hc : c < 1024) : Marked l (l.markDirty c) [c] :=
  ⟨l.markDirty_cache c, l.markDirty_rederive c, fun b => by
    simp only [l.markDirty_getLsbD c hc b, List.mem_singleton]⟩

theorem Marked.trans {l l' l'' : TileLayer} {cells cells' : List Nat} (h : Marked l l' cells)
    (h' : Marked l' l'' cells') : Marked l l'' (cells ++ cells') :=
  ⟨h'.cache.trans h.cache, h'.rederive.trans h.rederive, fun c => by
    simp only [h'.dirty, h.dirty, List.mem_append, Bool.decide_or, Bool.or_assoc]⟩

theorem marked_of_exec {i : Instr} {s t : State} (hi : i ≠ .renderFrame) (h : exec i s = .next t) (L : LayerId) :
    Marked (s.layer L) (t.layer L) (writtenCell L i).toList := by
  rw [exec_layer hi h]
  cases hc : writtenCell L i with
  | none => exact .refl _
  | some c => exact .markDirty _ (lt_of_writtenCell hc)

/-! ### A render refreshes each layer (R110) -/

theorem renderFrame_cache (cfg : Config) (s : State) (L : LayerId) (c : Fin 1024) :
    ((renderFrame cfg s).layer L).cache[c] =
      if (s.layer L).dirty.getLsbD c then some (tileInfo cfg s L c) else (s.layer L).cache[c] := by
  rw [renderFrame_layer, TileLayer.refresh_cache]

theorem renderFrame_dirty (cfg : Config) (s : State) (L : LayerId) : ((renderFrame cfg s).layer L).dirty = 0#1024 := by
  rw [renderFrame_layer, TileLayer.refresh_dirty]
  rfl

theorem renderFrame_rederive (cfg : Config) (s : State) (L : LayerId) :
    ((renderFrame cfg s).layer L).rederive = (s.layer L).rederive + dirtyCount (s.layer L).dirty := by
  rw [renderFrame_layer, TileLayer.refresh_rederive]

/-- Settles O17: a render is one refresh of each layer, and every other transaction only marks cells. -/
theorem renderRefreshesDirtyCells : Obligations.RenderRefreshesDirtyCells := by
  refine ⟨fun s => ⟨renderFrame Config.device s, rfl, fun L =>
    ⟨renderFrame_cache _ s L, renderFrame_dirty _ s L, renderFrame_rederive _ s L⟩⟩, fun i s t hi hexec L => ?_⟩
  obtain ⟨hcache, hrederive, hdirty⟩ := marked_of_exec hi hexec L
  exact ⟨hcache, hrederive, fun c hc => by rw [hdirty, hc, Bool.true_or]⟩

/-! ### The derivations between two renders (R111) -/

theorem execAll_cons {i : Instr} {rest : List Instr} {s t : State} (h : execAll (i :: rest) s = some t) :
    ∃ u, exec i s = .next u ∧ execAll rest u = some t := by
  unfold execAll at h
  split at h
  case h_1 u hu => exact ⟨u, hu, h⟩
  all_goals cases h

/-- By induction on the transactions: each marks the cell that it writes. -/
theorem marked_of_execAll {between : List Instr} {s t : State} (hno : .renderFrame ∉ between)
    (h : execAll between s = some t) (L : LayerId) :
    Marked (s.layer L) (t.layer L) (between.filterMap (writtenCell L)) := by
  rw [List.filterMap_eq_flatMap_toList]
  induction between generalizing s with
  | nil =>
    obtain rfl := Option.some.inj h
    exact .refl _
  | cons i rest ih =>
    rw [List.mem_cons, not_or] at hno
    obtain ⟨hi, hno⟩ := hno
    obtain ⟨u, hu, hrest⟩ := execAll_cons h
    exact (marked_of_exec (Ne.symm hi) hu L).trans (ih hno hrest)

/-- When exactly the cells of a list are dirty, as many are dirty as the list has distinct entries. -/
theorem dirtyCount_eq_length_dedup {d : BitVec 1024} {cells : List Nat}
    (h : ∀ c, d.getLsbD c = decide (c ∈ cells)) : dirtyCount d = cells.dedup.length := by
  have hmem (c : Nat) : c ∈ (List.range 1024).filter (fun c => d.getLsbD c) ↔ c ∈ cells.dedup := by
    rw [List.mem_filter, List.mem_range, List.mem_dedup, ← decide_eq_true_iff (p := c ∈ cells), ← h]
    exact and_iff_right_of_imp BitVec.lt_of_getLsbD
  rw [dirtyCount, List.countP_eq_length_filter]
  exact ((List.perm_ext_iff_of_nodup (List.nodup_range.filter _) (List.nodup_dedup _)).2 hmem).length_eq

/-- Settles O18: the first render leaves no cell dirty, so the second finds dirty exactly the cells written between. -/
theorem rederivationsCountDistinctCellsWritten : Obligations.RederivationsCountDistinctCellsWritten := by
  intro s t u between ht hno hu
  obtain rfl := Host.Outcome.next.inj ht
  refine ⟨renderFrame Config.device u, rfl, fun L => ?_⟩
  obtain ⟨-, hrederive, hdirty⟩ := marked_of_execAll hno hu L
  rw [renderFrame_rederive, hrederive, dirtyCount_eq_length_dedup fun c => ?_]
  rw [hdirty, renderFrame_dirty, BitVec.getLsbD_zero, Bool.false_or]

/-! ### Tile info (R99) -/

theorem tileInfoOf_code (g a : Byte) :
    (tileInfoOf g a).code = BitVec.ofNat 11 (g.toNat + 256 * (a.toNat / 32 % 8)) := by
  have hbank : (a.toNat >>> 5) &&& 7 = a.toNat / 32 % 8 := by
    rw [Nat.shiftRight_eq_div_pow]
    exact Nat.and_two_pow_sub_one_eq_mod _ 3
  rw [tileInfoOf, hbank]

/-- The code fits its 11 bits. -/
theorem tileInfoOf_code_toNat (g a : Byte) : (tileInfoOf g a).code.toNat = g.toNat + 256 * (a.toNat / 32 % 8) := by
  have hg := g.isLt
  rw [tileInfoOf_code, BitVec.toNat_ofNat]
  omega

theorem tileInfoOf_color_toNat (g a : Byte) : (tileInfoOf g a).color.toNat = a.toNat % 16 := by
  have hlow : a.toNat &&& 0x0F = a.toNat % 16 := Nat.and_two_pow_sub_one_eq_mod _ 4
  rw [tileInfoOf, hlow, BitVec.toNat_ofNat]
  omega

theorem tileInfoOf_flipx (g a : Byte) : (tileInfoOf g a).flipx = decide (a.toNat / 16 % 2 = 1) :=
  Nat.testBit_eq_decide_div_mod_eq

/-- Settles O16, field by field: each fits its width. -/
theorem tileInfoDerivation : Obligations.TileInfoDerivation :=
  fun _ _ _ => ⟨tileInfoOf_code_toNat _ _, tileInfoOf_color_toNat _ _, tileInfoOf_flipx _ _⟩

/-! ### Source coordinates (R109, R114) -/

/-- Settles O20: the two values of FLIP are the two branches of R114, and only the foreground scrolls. -/
theorem layerCoordinates : Obligations.LayerCoordinates := by
  intro s sx sy
  constructor <;>
    · intro hflip
      rw [hflip]
      exact ⟨rfl, rfl⟩

/-- The background's scroll is 0, so its draw does not read SCROLL (R109). -/
theorem drawBackground_setScroll (cfg : Config) (s : State) (d : Byte) :
    drawLayer cfg (s.setScroll d) .bg = (drawLayer cfg s .bg).setScroll d := rfl

theorem drawBackground_fb_setScroll (cfg : Config) (s : State) (d : Byte) :
    (drawLayer cfg (s.setScroll d) .bg).fb = (drawLayer cfg s .bg).fb := by
  rw [drawBackground_setScroll, State.setScroll_fb]

/-- Settles O21: the two framebuffers are one. -/
theorem backgroundIgnoresScroll : Obligations.BackgroundIgnoresScroll :=
  fun s d sx sy => congrArg (fun f => f.get sx sy) (drawBackground_fb_setScroll Config.device s d)

/-! ### The pixel of a cell (R98, R115, R116) -/

theorem tilePix_le (cfg : Config) (L : LayerId) (i : TileInfo) (t : Nat × Nat) :
    tilePix cfg L i t ≤ 2 ^ cfg.tileBpp - 1 :=
  Nat.le_sub_one_of_lt (BitVec.isLt _)

/-- A cell's flip-x mirrors the column within the cell, as a 3-bit number. -/
theorem ofNat_mirror {u : Nat} (hu : u < 8) : BitVec.ofNat 3 (7 - u) = 7#3 - BitVec.ofNat 3 u := by
  revert u
  decide

theorem tilePix_eq (cfg : Config) (L : LayerId) (i : TileInfo) (t : Nat × Nat) :
    tilePix cfg L i t = (tileGfx cfg L i.code
      (if i.flipx then 7#3 - BitVec.ofNat 3 (t.1 % 8) else BitVec.ofNat 3 (t.1 % 8))
      (BitVec.ofNat 3 (t.2 % 8))).toNat := by
  rw [tilePix, apply_ite (BitVec.ofNat 3), ofNat_mirror (Nat.mod_lt _ (by decide))]

theorem tileInk_bg (cfg : Config) (i : TileInfo) (t : Nat × Nat) :
    tileInk cfg .bg i t = some (tilePen cfg .bg i (tilePix cfg .bg i t)) :=
  if_pos (.inl rfl)

theorem tileInk_fg (cfg : Config) (i : TileInfo) (t : Nat × Nat) :
    tileInk cfg .fg i t =
      if tilePix cfg .fg i t = 0 then none else some (tilePen cfg .fg i (tilePix cfg .fg i t)) := by
  simp [tileInk]

/-- The grid of cells is row-major, 32 to a row (R98). -/
theorem cellAt_grid (tx ty : Fin 256) : cellAt (tx, ty) < 1024 ∧ cellAt (tx, ty) % 32 = tx / 8 ∧
    cellAt (tx, ty) / 32 = ty / 8 := by
  rw [cellAt]
  omega

/-- Settles O48: the pixel value is the graphics function's at the mirrored column, and the ink is its pen. -/
theorem tilePixelAndPen : Obligations.TilePixelAndPen := by
  intro cfg i tx ty
  refine ⟨⟨rfl, cellAt_grid tx ty⟩, ⟨tilePix_eq .., tilePix_eq .., fun L => tilePix_le ..⟩,
    fun pix => ⟨rfl, rfl⟩, ?_, ?_⟩
  · rw [tileInk_fg, tilePix_eq]
    rfl
  · rw [tileInk_bg, tilePix_eq]
    rfl

/-! ### The layer draw from the RAM's bytes (R117) -/

theorem tilePix_tileInfoOf (cfg : Config) (L : LayerId) (g a : Byte) (t : Nat × Nat) :
    tilePix cfg L (tileInfoOf g a) t = (tileGfx cfg L (BitVec.ofNat 11 (g.toNat + 256 * (a.toNat / 32 % 8)))
      (BitVec.ofNat 3 (if a.toNat / 16 % 2 = 1 then 7 - t.1 % 8 else t.1 % 8)) (BitVec.ofNat 3 (t.2 % 8))).toNat := by
  simp only [tilePix, tileInfoOf_code, tileInfoOf_flipx, decide_eq_true_eq]

theorem tilePen_tileInfoOf (cfg : Config) (L : LayerId) (g a : Byte) (pix : Nat) :
    tilePen cfg L (tileInfoOf g a) pix = colorBase cfg L + a.toNat % 16 * 2 ^ cfg.tileBpp + pix := by
  rw [tilePen, tileInfoOf_color_toNat]

/-- The background's column is below 256 without a scroll, so the reduction modulo 256 leaves it. -/
theorem layerCoord_zero (flip : Bool) (sx sy : Fin 256) : layerCoord flip 0 sx sy =
    (if flip then 255 - sx.val else sx.val, ((if flip then 255 - sy.val else sy.val) + 8) % 256) := by
  have hcol : (if flip then 255 - sx.val else sx.val) < 256 := by split <;> omega
  rw [layerCoord, Nat.add_zero, Nat.mod_eq_of_lt hcol]

/-- A background draw at a pixel with layer-image coordinate `t`, whose cell's tile info is `i` (R117). -/
theorem drawBackground_get {cfg : Config} {s : State} (h : Coherent cfg s .bg) {sx sy : Fin 256} {t : Nat × Nat}
    {i : TileInfo} (ht : layerCoord s.flip 0 sx sy = t) (hi : tileInfo cfg s .bg (cellAt t) = i) :
    (drawLayer cfg s .bg).fb.get sx sy =
      if InsidePixel s.clip sx sy then tilePen cfg .bg i (tilePix cfg .bg i t) else s.fb.get sx sy := by
  subst ht hi
  rw [drawLayer_get h, layerSource_bg]
  rfl

/-- A foreground draw at such a pixel, where the pixel value 0 is transparent (R116, R117). -/
theorem drawForeground_get {cfg : Config} {s : State} (h : Coherent cfg s .fg) {sx sy : Fin 256} {t : Nat × Nat}
    {i : TileInfo} (ht : layerCoord s.flip s.scroll.toNat sx sy = t) (hi : tileInfo cfg s .fg (cellAt t) = i) :
    (drawLayer cfg s .fg).fb.get sx sy =
      if InsidePixel s.clip sx sy ∧ tilePix cfg .fg i t ≠ 0 then tilePen cfg .fg i (tilePix cfg .fg i t)
      else s.fb.get sx sy := by
  have hsource : layerSource cfg s .fg sx sy = tileInk cfg .fg i t := by rw [layerSource, layerScroll, ht, hi]
  rw [drawLayer_get h, hsource, tileInk_fg]
  by_cases hin : InsidePixel s.clip sx sy
  · by_cases hpix : tilePix cfg .fg i t = 0
    · rw [if_pos hin, if_pos hpix, if_neg fun hopaque => hopaque.2 hpix, Option.getD_none]
    · rw [if_pos hin, if_neg hpix, if_pos ⟨hin, hpix⟩, Option.getD_some]
  · rw [if_neg hin, if_neg fun hopaque => hin hopaque.1]

/-- Settles O49: the draw at the pixel's coordinate, with the cell's tile info written out from its two bytes. -/
theorem layerDrawOfEveryPixel : Obligations.LayerDrawOfEveryPixel := by
  intro cfg s sx sy qx qy ty pixel
  constructor
  · intro h tx c a pix
    have hdraw := drawBackground_get h (i := tileInfoOf (ramByte cfg s (0x0800 + c)) a) (layerCoord_zero _ sx sy) rfl
    rwa [tilePix_tileInfoOf, tilePen_tileInfoOf] at hdraw
  · intro h tx c a pix
    have hdraw := drawForeground_get h (sx := sx) (sy := sy) (t := (tx, ty))
      (i := tileInfoOf (ramByte cfg s (0x0000 + c)) a) rfl rfl
    rwa [tilePix_tileInfoOf, tilePen_tileInfoOf] at hdraw

end Sys2Proof.Machine
end

section
/-! PROOFS. The sprite bank controller: what a sprite WRITE and a sprite READ do (R128, R129, R141, R142), the decode of
a slot (R130 to R136), the bits of a record that no pixel depends on (R137), and the blits of a bank draw (R138,
R139). -/

namespace Sys2Proof.Machine

/-! ### The sprite WRITEs (R128, R129) -/

theorem exec_spriteWrite (b : Bank) (k : BitVec 5) (d : Byte) (s : State) :
    exec (spriteWrite b k d) s = .next (memWrite Config.device s (spriteRegion b) k.toNat d) :=
  perform_spriteWrite b k d s

theorem encode_spriteWrite_toNat (b : Bank) (k : BitVec 5) (d : Byte) :
    (encode (spriteWrite b k d)).toNat = ((spriteRegion b).base + k.toNat) * 0x100 + d.toNat := by
  have ha := toNat_portAddr (r := spriteRegion b) (i := k.toNat) (by simpa using k.isLt)
  rw [encode_spriteWrite ha, encodeWrite_toNat, ha]

@[simp] theorem memRead_memWrite_same (cfg : Config) (s : State) (r : Region) (i : Nat) (v : Byte) :
    memRead cfg (memWrite cfg s r i v) r i = v :=
  ramByte_memWrite_same cfg s r i v

theorem slotByte_slotOf_byteOf (k : BitVec 5) : slotByte (slotOf k).toNat (byteOf k).toNat = k.toNat :=
  slot_byte k

/-- Settles O22: one effect for both banks; the byte of the slot that a decode reads is the byte at the index. -/
theorem spriteWritesStoreTheByte : Obligations.SpriteWritesStoreTheByte := by
  intro k d s b i
  have hi : i = spriteWrite b k d := by cases b <;> rfl
  rw [hi]
  refine ⟨encode_spriteWrite_toNat b k d, _, exec_spriteWrite b k d s, memRead_memWrite_same .., ?_,
    fun a ha => ramByte_memWrite_other _ _ _ _ _ ha, rfl⟩
  rw [slotByte_slotOf_byteOf, memRead_memWrite_same]

/-! ### The sprite READs (R141, R142) -/

theorem exec_spriteRead (b : Bank) (k : BitVec 5) (s : State) :
    exec (spriteRead b k) s = .next (readRam Config.device s (spriteRegion b) k.toNat) := by
  cases b <;> rfl

theorem encode_spriteRead_toNat (b : Bank) (k : BitVec 5) :
    (encode (spriteRead b k)).toNat = 0x400000 + ((spriteRegion b).base + k.toNat) * 0x100 := by
  have ha := toNat_portAddr (r := spriteRegion b) (i := k.toNat) (by simpa using k.isLt)
  rw [encode_spriteRead ha, encodeRead_toNat, ha]

theorem ramReadEffect_spriteRead (b : Bank) (k : BitVec 5) (s : State) :
    RamReadEffect (spriteRead b k) (spriteRegion b) k.toNat s :=
  ⟨encode_spriteRead_toNat b k, exec_spriteRead b k s⟩

/-- Settles O23: one effect for both banks, and the power-up draw of every RAM byte. -/
theorem spriteReadsReturnTheByte : Obligations.SpriteReadsReturnTheByte :=
  ⟨fun k s => ⟨ramReadEffect_spriteRead .pri k s, ramReadEffect_spriteRead .sec k s⟩, fun _ _ => memRead_reset _ _⟩

theorem exec_spriteRead_of_spriteWrite {b : Bank} {k : BitVec 5} {d : Byte} {s t : State}
    (h : exec (spriteWrite b k d) s = .next t) :
    exec (spriteRead b k) t = .next { t with response := .byte d } := by
  rw [exec_spriteWrite] at h
  obtain rfl := Host.Outcome.next.inj h
  rw [exec_spriteRead, readRam, memRead_memWrite_same, State.respond]

/-! ### The decode of a slot (R130 to R136) -/

theorem spriteX_range (b3 : Byte) : -8 ≤ spriteX b3 ∧ spriteX b3 ≤ 247 := by
  have hlt := b3.isLt
  unfold spriteX
  split <;> omega

theorem spriteY_range (b0 : Byte) : -15 ≤ spriteY b0 ∧ spriteY b0 ≤ 240 := by
  have hlt := b0.isLt
  unfold spriteY
  omega

/-- The screen flip maps the range of the x position onto itself (R135). -/
theorem spriteOf_x_range (b : Bank) (flip : Bool) (b0 b1 b2 b3 : Byte) :
    -8 ≤ (spriteOf b flip b0 b1 b2 b3).x ∧ (spriteOf b flip b0 b1 b2 b3).x ≤ 247 := by
  have hx := spriteX_range b3
  rw [spriteOf]
  cases flip
  case false => exact hx
  case true => simp only [if_true]; omega

theorem spriteOf_y_range_flip (b : Bank) (b0 b1 b2 b3 : Byte) :
    -1 ≤ (spriteOf b true b0 b1 b2 b3).y ∧ (spriteOf b true b0 b1 b2 b3).y ≤ 254 := by
  have hy := spriteY_range b0
  simp only [spriteOf, if_true]
  omega

theorem spriteCode_eq (b : Bank) (b1 b2 : Byte) :
    spriteCode b b1 b2 = b1.toNat / 4 + b2.toNat / 32 % 8 * 0x40 + spriteCodeOffset b := by
  have hhigh : (b2.toNat >>> 5) &&& 7 = b2.toNat / 32 % 8 := by
    rw [Nat.shiftRight_eq_div_pow]
    exact Nat.and_two_pow_sub_one_eq_mod _ 3
  rw [spriteCode, hhigh, Nat.shiftRight_eq_div_pow]

/-- The code fits its 10 bits. -/
theorem spriteOf_code_toNat (b : Bank) (flip : Bool) (b0 b1 b2 b3 : Byte) :
    (spriteOf b flip b0 b1 b2 b3).code.toNat =
      b1.toNat / 4 + b2.toNat / 32 % 8 * 0x40 + spriteCodeOffset b := by
  have hlt := b1.isLt
  have hoffset : spriteCodeOffset b ≤ 0x200 := by cases b <;> decide
  rw [spriteOf, spriteCode_eq, BitVec.toNat_ofNat]
  omega

/-- The codes of a bank are the 512 from its offset on (R132). -/
theorem spriteOf_code_range (b : Bank) (flip : Bool) (b0 b1 b2 b3 : Byte) :
    spriteCodeOffset b ≤ (spriteOf b flip b0 b1 b2 b3).code.toNat ∧
      (spriteOf b flip b0 b1 b2 b3).code.toNat ≤ spriteCodeOffset b + 0x1FF := by
  have hlt := b1.isLt
  rw [spriteOf_code_toNat]
  omega

/-- The low 6 bits and the high 3 bits of the code do not overlap, so adding them is joining them (R132). -/
theorem codeBits_add_eq_or (b1 b2 : Byte) :
    b1.toNat / 4 + b2.toNat / 32 % 8 * 0x40 = b1.toNat / 4 ||| b2.toNat / 32 % 8 * 0x40 := by
  have hlow : b1.toNat / 4 < 2 ^ 6 := by have := b1.isLt; omega
  rw [Nat.add_comm, Nat.or_comm, Nat.mul_comm]
  exact Nat.two_pow_add_eq_or_of_lt hlow _

theorem spriteOf_color_toNat (b : Bank) (flip : Bool) (b0 b1 b2 b3 : Byte) :
    (spriteOf b flip b0 b1 b2 b3).color.toNat = b2.toNat % 16 := by
  have hlow : b2.toNat &&& 0x0F = b2.toNat % 16 := Nat.and_two_pow_sub_one_eq_mod _ 4
  rw [spriteOf, hlow, BitVec.toNat_ofNat]
  omega

theorem spriteOf_flipx (b : Bank) (flip : Bool) (b0 b1 b2 b3 : Byte) :
    (spriteOf b flip b0 b1 b2 b3).flipx =
      if flip then decide (b1.toNat % 2 = 0) else decide (b1.toNat % 2 = 1) := by
  have hbit : b1.getLsbD 0 = decide (b1.toNat % 2 = 1) := Nat.testBit_zero _
  rw [spriteOf, hbit]
  cases flip
  case false => rfl
  case true => simp [← decide_not]

/-- Settles O24, field by field. -/
theorem spriteDecodeOfASlot : Obligations.SpriteDecodeOfASlot := by
  intro b flip b0 b1 b2 b3 d x y
  have hcode := spriteOf_code_toNat b flip b0 b1 b2 b3
  obtain ⟨hfirst, hlast⟩ := spriteOf_code_range b flip b0 b1 b2 b3
  refine ⟨⟨(spriteX_range b3).1, (spriteX_range b3).2, spriteY_range b0⟩, rfl, rfl, spriteOf_x_range .., ?_, ?_,
    codeBits_add_eq_or b1 b2, ?_, spriteOf_color_toNat .., spriteOf_flipx .., rfl⟩
  · rintro rfl
    exact spriteOf_y_range_flip ..
  · cases b <;> exact hcode
  · cases b
    case pri => exact hlast
    case sec => exact ⟨hfirst, hlast⟩

/-! ### The unused bits of a record (R137) -/

/-- Which bits of byte `j` of a record the decode reads: all but byte1 bit 1 and byte2 bit 4. -/
def UsedBit (j bit : Nat) : Prop := ¬ (j = 1 ∧ bit = 1) ∧ ¬ (j = 2 ∧ bit = 4)

/-- Two bytes hold the same at every bit of byte `j` of a record that the decode reads. -/
def AgreeOnUsedBits (j : Nat) (v w : Byte) : Prop := ∀ bit, UsedBit j bit → v.getLsbD bit = w.getLsbD bit

theorem AgreeOnUsedBits.eq {j : Nat} {v w : Byte} (h : AgreeOnUsedBits j v w) (h1 : j ≠ 1) (h2 : j ≠ 2) : v = w :=
  BitVec.eq_of_getLsbD_eq fun bit _ => h bit ⟨fun hj => h1 hj.1, fun hj => h2 hj.1⟩

/-- The code takes byte1 from bit 2 on, and byte2 from bit 5 on (R132). -/
theorem spriteCode_congr {b : Bank} {b1 b1' b2 b2' : Byte} (h1 : AgreeOnUsedBits 1 b1 b1')
    (h2 : AgreeOnUsedBits 2 b2 b2') : spriteCode b b1 b2 = spriteCode b b1' b2' := by
  have hlow : b1.toNat >>> 2 = b1'.toNat >>> 2 := Nat.eq_of_testBit_eq fun i => by
    rw [Nat.testBit_shiftRight, Nat.testBit_shiftRight]
    exact h1 _ (by unfold UsedBit; omega)
  have hhigh : b2.toNat >>> 5 = b2'.toNat >>> 5 := Nat.eq_of_testBit_eq fun i => by
    rw [Nat.testBit_shiftRight, Nat.testBit_shiftRight]
    exact h2 _ (by unfold UsedBit; omega)
  rw [spriteCode, hlow, hhigh, spriteCode]

/-- The colour takes byte2 below bit 4 (R133). -/
theorem spriteColor_congr {b2 b2' : Byte} (h2 : AgreeOnUsedBits 2 b2 b2') :
    b2.toNat &&& 0x0F = b2'.toNat &&& 0x0F := by
  refine Nat.eq_of_testBit_eq fun i => ?_
  rw [Nat.testBit_and, Nat.testBit_and]
  by_cases hi : i = 4
  · subst hi
    have hmask : Nat.testBit 0x0F 4 = false := by decide
    rw [hmask, Bool.and_false, Bool.and_false]
  · exact congrArg (· && _) (h2 i (by unfold UsedBit; omega))

theorem spriteOf_congr {b : Bank} {flip : Bool} {b0 b1 b2 b3 b0' b1' b2' b3' : Byte}
    (h0 : AgreeOnUsedBits 0 b0 b0') (h1 : AgreeOnUsedBits 1 b1 b1') (h2 : AgreeOnUsedBits 2 b2 b2')
    (h3 : AgreeOnUsedBits 3 b3 b3') : spriteOf b flip b0 b1 b2 b3 = spriteOf b flip b0' b1' b2' b3' := by
  obtain rfl := h0.eq (by decide) (by decide)
  obtain rfl := h3.eq (by decide) (by decide)
  have hflipx : b1.getLsbD 0 = b1'.getLsbD 0 := h1 0 (by unfold UsedBit; omega)
  rw [spriteOf, spriteCode_congr h1 h2, spriteColor_congr h2, hflipx, spriteOf]

/-- Byte `j` of a slot: its port address is a sprite RAM address, and its place in the record is the address mod 4. -/
theorem slotByte_addr (b : Bank) {slot j : Nat} (hslot : slot < 8) (hj : j < 4) :
    0x1000 ≤ (spriteRegion b).base + slotByte slot j ∧ (spriteRegion b).base + slotByte slot j < 0x1040 ∧
      ((spriteRegion b).base + slotByte slot j) % 4 = j := by
  cases b <;> simp only [spriteRegion, Region.base, slotByte] <;> omega

/-- A slot reads `FLIP` and the used bits of its record alone. -/
theorem spriteAt_congr_usedBits {cfg : Config} {s t : State}
    (h : ∀ a, 0x1000 ≤ a → a < 0x1040 → AgreeOnUsedBits (a % 4) (ramByte cfg s a) (ramByte cfg t a))
    (hflip : s.flip = t.flip) (b : Bank) {slot : Nat} (hslot : slot < 8) :
    spriteAt cfg s b slot = spriteAt cfg t b slot := by
  have agree (j : Nat) (hj : j < 4) : AgreeOnUsedBits j (memRead cfg s (spriteRegion b) (slotByte slot j))
      (memRead cfg t (spriteRegion b) (slotByte slot j)) := by
    obtain ⟨hlow, hhigh, hplace⟩ := slotByte_addr b hslot hj
    have hbyte := h _ hlow hhigh
    rwa [hplace] at hbyte
  rw [spriteAt, spriteAt, hflip]
  exact spriteOf_congr (agree 0 (by decide)) (agree 1 (by decide)) (agree 2 (by decide)) (agree 3 (by decide))

theorem tileRegion_addr_lt (L : LayerId) (p : Plane) {c : Nat} (hc : c < 1024) :
    (tileRegion L p).base + c < 0x1000 := by
  cases L <;> cases p <;> simp only [tileRegion, Region.base] <;> omega

/-! ### Two states that render alike -/

/-- The two states agree on everything that a draw reads: the framebuffer, the clip, the registers, the layers'
bookkeeping, and what the RAM decodes to. -/
structure DrawsAlike (cfg : Config) (s t : State) : Prop where
  fb : s.fb = t.fb
  clip : s.clip = t.clip
  scroll : s.scroll = t.scroll
  latch : s.latch = t.latch
  layer : ∀ L, s.layer L = t.layer L
  tile : ∀ L c, c < 1024 → tileInfo cfg s L c = tileInfo cfg t L c
  sprite : ∀ b slot, slot < 8 → spriteAt cfg s b slot = spriteAt cfg t b slot

namespace DrawsAlike

variable {cfg : Config} {s t : State} (h : DrawsAlike cfg s t)
include h

theorem flip : s.flip = t.flip := congrArg (·.getLsbD 1) h.latch

theorem prio : s.prio = t.prio := congrArg (·.extractLsb' 4 2) h.latch

theorem setPhase (p : Phase) : DrawsAlike cfg (s.setPhase p) (t.setPhase p) :=
  ⟨h.fb, h.clip, h.scroll, h.latch, fun L => by simpa using h.layer L, h.tile, h.sprite⟩

theorem drawBank (b : Bank) : DrawsAlike cfg (drawBank cfg s b) (drawBank cfg t b) :=
  ⟨drawBank_fb_congr (h.sprite b) h.clip h.fb, h.clip, h.scroll, h.latch, fun L => by simpa using h.layer L, h.tile,
    h.sprite⟩

theorem drawLayer (L : LayerId) : DrawsAlike cfg (drawLayer cfg s L) (drawLayer cfg t L) where
  fb := drawLayer_fb_congr (h.tile L) h.flip h.scroll h.clip (h.layer L) h.fb
  clip := by simpa using h.clip
  scroll := by simpa using h.scroll
  latch := by simpa using h.latch
  layer M := by
    by_cases hM : M = L
    · subst hM
      rw [drawLayer_layer, drawLayer_layer, h.layer, TileLayer.refresh_congr (h.tile M)]
    · rw [drawLayer_layer_other cfg s hM, drawLayer_layer_other cfg t hM, h.layer]
  tile M c hc := by simpa [tileInfo] using h.tile M c hc
  sprite b slot hslot := by simpa [spriteAt] using h.sprite b slot hslot

/-- The draws of R157's sequence compose. -/
theorem renderFrame_fb : (renderFrame cfg s).fb = (renderFrame cfg t).fb := by
  by_cases hp : s.prio = 0#2
  · rw [renderFrame_zero cfg s hp, renderFrame_zero cfg t (h.prio ▸ hp)]
    exact ((((((((h.setPhase .bg).drawLayer .bg).setPhase .fgEarly).drawLayer .fg).setPhase .sprFirst).drawBank
      .sec).setPhase .sprSecond).drawBank .pri).fb
  · rw [renderFrame_ne_zero cfg s hp, renderFrame_ne_zero cfg t (h.prio ▸ hp), h.prio]
    exact ((((((((h.setPhase .bg).drawLayer .bg).setPhase .sprFirst).drawBank (firstBank t.prio)).setPhase
      .sprSecond).drawBank (secondBank t.prio)).setPhase .fgLate).drawLayer .fg).fb

end DrawsAlike

theorem drawsAlike_of_mem {cfg : Config} {s : State} {m : List Host.Cell}
    (htile : ∀ a, a < 0x1000 → ramByte cfg { s with mem := m } a = ramByte cfg s a)
    (hsprite : ∀ a, 0x1000 ≤ a → a < 0x1040 →
      AgreeOnUsedBits (a % 4) (ramByte cfg { s with mem := m } a) (ramByte cfg s a)) :
    DrawsAlike cfg { s with mem := m } s where
  fb := rfl
  clip := rfl
  scroll := rfl
  latch := rfl
  layer L := by cases L <;> rfl
  tile L _ hc := tileInfo_congr_cell fun p => htile _ (tileRegion_addr_lt L p hc)
  sprite b _ hslot := spriteAt_congr_usedBits hsprite rfl b hslot

/-- Settles O25: the byte is stored whole, and the two memories decode to the same tiles and the same sprites. -/
theorem unusedSpriteBitsHaveNoEffect : Obligations.UnusedSpriteBitsHaveNoEffect := by
  refine ⟨fun k d s t => ⟨exec_spriteRead_of_spriteWrite (b := .pri), exec_spriteRead_of_spriteWrite (b := .sec)⟩,
    fun s m htile hsprite =>
      ⟨renderFrame Config.device s, renderFrame Config.device { s with mem := m }, rfl, rfl, ?_⟩⟩
  exact (drawsAlike_of_mem htile fun a hlow hhigh bit hused =>
    hsprite a hlow hhigh bit hused.1 hused.2).renderFrame_fb

/-! ### The blit of every pixel (R138) -/

/-- Pixel `(u, v)` of the cell of a decoded sprite lands on the point `(x, y)` of the plane. -/
def Lands (cfg : Config) (d : Sprite) (x y : Int) (u v : Nat) : Prop :=
  u < cfg.spriteW ∧ v < cfg.spriteH ∧
    d.x + (if d.flipx then (cfg.spriteW : Int) - 1 - u else u) = x ∧
    d.y + (if d.flipy then (cfg.spriteH : Int) - 1 - v else v) = y

/-- At most one cell pixel lands on a point: the one that `spriteSource` looks up. -/
theorem spriteSource_of_lands {cfg : Config} {d : Sprite} {x y : Int} {u v : Nat} (h : Lands cfg d x y u v) :
    spriteSource cfg d x y = if (cfg.spriteGfx d.code u v).toNat ≠ 0
      then some (spritePen cfg d (cfg.spriteGfx d.code u v).toNat) else none := by
  obtain ⟨hu, hv, hx, hy⟩ := h
  obtain ⟨⟨hx0, hxW⟩, hcol⟩ := (mirror_iff _ _ _ _ _ hu).1 hx
  obtain ⟨⟨hy0, hyH⟩, hrow⟩ := (mirror_iff _ _ _ _ _ hv).1 hy
  rw [spriteSource, if_pos ⟨hx0, hxW, hy0, hyH⟩, hcol, hrow]

/-- A point of the sprite's box has a cell pixel that lands there; outside the box there is none to show. -/
theorem spriteSource_eq_none {cfg : Config} {d : Sprite} {x y : Int}
    (h : ∀ u v, Lands cfg d x y u v → (cfg.spriteGfx d.code u v).toNat = 0) : spriteSource cfg d x y = none := by
  by_cases hbox : 0 ≤ x - d.x ∧ x - d.x < cfg.spriteW ∧ 0 ≤ y - d.y ∧ y - d.y < cfg.spriteH
  · obtain ⟨hx0, hxW, hy0, hyH⟩ := hbox
    have hu := unmirror_lt (m := d.flipx) ⟨hx0, hxW⟩
    have hv := unmirror_lt (m := d.flipy) ⟨hy0, hyH⟩
    have hlands : Lands cfg d x y (unmirror d.flipx cfg.spriteW (x - d.x)) (unmirror d.flipy cfg.spriteH (y - d.y)) :=
      ⟨hu, hv, (mirror_iff _ _ _ _ _ hu).2 ⟨⟨hx0, hxW⟩, rfl⟩, (mirror_iff _ _ _ _ _ hv).2 ⟨⟨hy0, hyH⟩, rfl⟩⟩
    rw [spriteSource_of_lands hlands, if_neg (not_not.2 (h _ _ hlands))]
  · exact if_neg hbox

/-- Settles O50, by what the sprite shows at the pixel: the opaque cell pixel that lands there, or nothing. -/
theorem blitOfEveryPixel : Obligations.BlitOfEveryPixel := by
  intro cfg c d f x y pix lands
  refine ⟨fun u v hlands hopaque hin => ?_, fun hkeep => ?_⟩
  · rw [blit_get, if_pos hin, spriteSource_of_lands hlands, if_pos hopaque]
    rfl
  · rw [blit_get]
    obtain hnone | hout := hkeep
    · rw [spriteSource_eq_none hnone, Option.getD_none, ite_self]
    · exact if_neg hout

/-! ### The blits of a bank draw (R139) -/

/-- A bank draw's framebuffer, for any decode of the slots that agrees with the RAM's. -/
theorem drawBank_fb_eq_blits {cfg : Config} {s : State} {b : Bank} {slot : Nat → Sprite}
    (h : ∀ k, spriteAt cfg s b k = slot k) :
    (drawBank cfg s b).fb =
      [7, 6, 5, 4, 3, 2, 1, 0].foldl (fun f k => blit cfg s.clip (slot k) f) s.fb := by
  simp only [drawBank, h]

/-- Settles O51: the fold over the slots, each decoded from the bytes at its four port addresses. -/
theorem bankDrawBlitsEverySlot : Obligations.BankDrawBlitsEverySlot := by
  intro cfg s b base slot draw
  have hslot (k : Nat) : spriteAt cfg s b k = slot k := by cases b <;> rfl
  exact drawBank_fb_eq_blits hslot

end Sys2Proof.Machine
end

section
/-! PROOFS. The priority/mode latch: the fields and outputs that WR_CTRL's byte gives (R147), and that no transaction
reads bits 2, 3 and 7 of the latch (R149). -/

namespace Sys2Proof.Machine

/-! ### The fields of a latch byte (R147) -/

theorem getLsbD_eq_decide_div (d : Byte) (k : Nat) : d.getLsbD k = decide (d.toNat / 2 ^ k % 2 = 1) :=
  Nat.testBit_eq_decide_div_mod_eq

theorem State.setLatch_prio_toNat (s : State) (d : Byte) : (s.setLatch d).prio.toNat = d.toNat / 16 % 4 := by
  rw [State.prio, State.setLatch_latch, BitVec.extractLsb'_toNat, Nat.shiftRight_eq_div_pow]

/-- Settles O26: the next state is `State.setLatch`, whose every field and output is read off the byte. -/
theorem writeCtrlSetsTheLatch : Obligations.WriteCtrlSetsTheLatch := by
  intro d s
  have hnmi : d.getLsbD 0 = decide (d.toNat % 2 = 1) := by rw [getLsbD_eq_decide_div, Nat.pow_zero, Nat.div_one]
  exact ⟨encodeWrite_toNat 0x1041#13 d, s.setLatch d, rfl, rfl, hnmi, getLsbD_eq_decide_div d 1,
    s.setLatch_prio_toNat d, getLsbD_eq_decide_div d 6, rfl, rfl, rfl⟩

/-! ### The operations that read no field of the latch -/

theorem setPhase_setLatch (s : State) (d : Byte) (p : Phase) : (s.setLatch d).setPhase p = (s.setPhase p).setLatch d :=
  rfl

theorem respond_setLatch (s : State) (d : Byte) (r : Response) : (s.setLatch d).respond r = (s.respond r).setLatch d :=
  rfl

theorem refresh_setLatch (cfg : Config) (s : State) (d : Byte) (L : LayerId) :
    (s.setLatch d).refresh cfg L = (s.refresh cfg L).setLatch d := by
  cases L <;> rfl

/-! ### The draws read FLIP alone (R114, R135, R136, R152) -/

section SameFlip

variable {s : State} {d : Byte} (hflip : d.getLsbD 1 = s.flip)
include hflip

theorem layerInk_setLatch (cfg : Config) (L : LayerId) : layerInk cfg (s.setLatch d) L = layerInk cfg s L := by
  have hread : (s.setLatch d).flip = s.flip := hflip
  have hscroll : layerScroll (s.setLatch d) L = layerScroll s L := by cases L <;> rfl
  funext sx sy
  simp only [layerInk, hread, hscroll, State.setLatch_clip, State.setLatch_layer]

theorem drawLayer_setLatch (cfg : Config) (L : LayerId) :
    drawLayer cfg (s.setLatch d) L = (drawLayer cfg s L).setLatch d := by
  have hrefresh : d.getLsbD 1 = (s.refresh cfg L).flip := by rwa [State.refresh_flip]
  rw [drawLayer, refresh_setLatch, layerInk_setLatch hrefresh]
  rfl

theorem spriteAt_setLatch (cfg : Config) (b : Bank) (slot : Nat) :
    spriteAt cfg (s.setLatch d) b slot = spriteAt cfg s b slot :=
  spriteAt_congr (s.setLatch_ramByte cfg d) hflip b slot

theorem drawBank_setLatch (cfg : Config) (b : Bank) :
    drawBank cfg (s.setLatch d) b = (drawBank cfg s b).setLatch d := by
  simp only [drawBank, spriteAt_setLatch hflip]
  rfl

/-- The render reads PRIO besides, for its order (R153, R157). -/
theorem renderFrame_setLatch (hprio : (s.setLatch d).prio = s.prio) (cfg : Config) :
    renderFrame cfg (s.setLatch d) = (renderFrame cfg s).setLatch d := by
  by_cases hp : s.prio = 0#2
  · rw [renderFrame_zero cfg s hp, renderFrame_zero cfg _ (hprio.trans hp)]
    simp only [setPhase_setLatch, respond_setLatch, drawLayer_setLatch, drawBank_setLatch, State.setPhase_flip,
      drawLayer_flip, drawBank_flip, hflip]
  · rw [renderFrame_ne_zero cfg s hp, renderFrame_ne_zero cfg _ (hprio ▸ hp), hprio]
    simp only [setPhase_setLatch, respond_setLatch, drawLayer_setLatch, drawBank_setLatch, State.setPhase_flip,
      drawLayer_flip, drawBank_flip, hflip]

end SameFlip

/-! ### The unused bits (R149) -/

/-- `PRIO` is bits 4 and 5 of the latch. -/
theorem prio_congr {s t : State} (h4 : s.latch.getLsbD 4 = t.latch.getLsbD 4)
    (h5 : s.latch.getLsbD 5 = t.latch.getLsbD 5) : s.prio = t.prio := by
  refine BitVec.eq_of_getLsbD_eq fun i hi => ?_
  simp only [State.prio, BitVec.getLsbD_extractLsb', hi, decide_true, Bool.true_and]
  obtain rfl | rfl : i = 0 ∨ i = 1 := by omega
  · exact h4
  · exact h5

/-- Settles O27: each output is a used bit; of the transactions the render alone reads the latch, and of it FLIP and
PRIO, which the used bits give. -/
theorem unusedLatchBitsAffectNothing : Obligations.UnusedLatchBitsAffectNothing := by
  intro s d hused
  have hflip : d.getLsbD 1 = s.flip := hused 1 (by decide)
  have hprio : (s.setLatch d).prio = s.prio := prio_congr (hused 4 (by decide)) (hused 5 (by decide))
  refine ⟨hused 0 (by decide), hflip, hused 6 (by decide), fun i => ?_⟩
  cases i
  case renderFrame =>
    exact ⟨renderFrame Config.device s, rfl, congrArg _ (renderFrame_setLatch hflip hprio _)⟩
  -- the others read no field of the latch
  all_goals exact ⟨_, rfl, rfl⟩

end Sys2Proof.Machine
end

section
/-! PROOFS. The frame compositor: a render as the fold of its draws, what each draw puts on a pixel, the visible pixel
of a render and what the render leaves unchanged (R157 to R169). -/

namespace Sys2Proof.Machine

theorem exec_renderFrame (s : State) : exec .renderFrame s = .next (renderFrame Config.device s) :=
  rfl

/-! ### The phase table (R158) -/

theorem compositorStep_phase (cfg : Config) (p : BitVec 2) (s : State) :
    (compositorStep cfg p s).phase = nextPhase p s.phase := by
  rw [compositorStep]
  cases nextPhase p s.phase <;> simp [enterPhase]

theorem iterate_compositorStep_phase (cfg : Config) (p : BitVec 2) (s : State) (n : Nat) :
    ((compositorStep cfg p)^[n] s).phase = (nextPhase p)^[n] s.phase :=
  Function.Semiconj.iterate_right (f := State.phase) (compositorStep_phase cfg p) n s

/-- The transitions of the table enter one phase after another. -/
theorem iterate_compositorStep (cfg : Config) (p : BitVec 2) (s : State) (n : Nat) :
    (compositorStep cfg p)^[n] s =
      ((List.range n).map fun k => (nextPhase p)^[k + 1] s.phase).foldl (enterPhase cfg p) s := by
  induction n with
  | zero => rfl
  | succ n ih =>
    rw [Function.iterate_succ_apply', List.range_succ, List.map_append, List.foldl_append, ← ih, compositorStep,
      iterate_compositorStep_phase, ← Function.iterate_succ_apply' (nextPhase p)]
    rfl

/-- The phases that a render enters from IDLE (R158). -/
def enteredPhases (p : BitVec 2) : List Phase :=
  if p = 0#2 then [.bg, .fgEarly, .sprFirst, .sprSecond, .done, .idle]
  else [.bg, .sprFirst, .sprSecond, .fgLate, .done, .idle]

theorem nextPhase_entered (p : BitVec 2) :
    (List.range 6).map (fun k => (nextPhase p)^[k + 1] .idle) = enteredPhases p := by
  revert p
  decide

theorem renderFrame_eq_foldl_enterPhase (cfg : Config) (s : State) :
    renderFrame cfg s = (enteredPhases s.prio).foldl (enterPhase cfg s.prio) s := by
  by_cases hp : s.prio = 0#2
  · rw [renderFrame_zero cfg s hp, hp]
    rfl
  · rw [renderFrame_ne_zero cfg s hp, enteredPhases, if_neg hp]
    rfl

/-- Settles O32: the transitions from IDLE enter the phases in which the render performs its draws. -/
theorem renderFollowsThePhaseTable : Obligations.RenderFollowsThePhaseTable := by
  intro s hidle
  have hphases : (List.range 7).map (fun n => (nextPhase s.prio)^[n] .idle) = .idle :: enteredPhases s.prio := by
    rw [← nextPhase_entered]
    rfl
  constructor
  · rw [iterate_compositorStep, hidle, nextPhase_entered, ← renderFrame_eq_foldl_enterPhase, exec_renderFrame]
  · simp only [iterate_compositorStep_phase, hidle]
    rw [hphases, enteredPhases, apply_ite (List.cons Phase.idle)]

/-! ### A render as the fold of its draws (R164) -/

theorem drawLayer_setPhase (cfg : Config) (s : State) (p : Phase) (L : LayerId) :
    drawLayer cfg (s.setPhase p) L = (drawLayer cfg s L).setPhase p := by
  cases L <;> rfl

theorem drawBank_setPhase (cfg : Config) (s : State) (p : Phase) (b : Bank) :
    drawBank cfg (s.setPhase p) b = (drawBank cfg s b).setPhase p :=
  id rfl

theorem setPhase_setPhase (s : State) (p q : Phase) : (s.setPhase p).setPhase q = s.setPhase q :=
  id rfl

/-- The phases leave no trace but the last, IDLE: a render is its four draws and its answer. -/
theorem renderFrame_eq_draws (cfg : Config) (s : State) :
    renderFrame cfg s =
      (((drawOrder s.prio).foldl (performDraw cfg) s).setPhase .idle).respond (.status .success) := by
  by_cases h0 : s.prio = 0#2
  · rw [renderFrame_zero cfg s h0, drawOrder, if_pos h0]
    simp only [drawLayer_setPhase, drawBank_setPhase, setPhase_setPhase, List.foldl_cons, List.foldl_nil, performDraw]
  · rw [renderFrame_ne_zero cfg s h0, drawOrder, if_neg h0, firstBank, secondBank]
    split
    all_goals
      simp only [drawLayer_setPhase, drawBank_setPhase, setPhase_setPhase, List.foldl_cons, List.foldl_nil,
        performDraw]

theorem renderFrame_fb (cfg : Config) (s : State) :
    (renderFrame cfg s).fb = ((drawOrder s.prio).foldl (performDraw cfg) s).fb := by
  rw [renderFrame_eq_draws, State.respond_fb, State.setPhase_fb]

/-- Settles O33: moving between phases and answering leave the framebuffer of the four draws. -/
theorem drawOrderOfEachPriorityCode : Obligations.DrawOrderOfEachPriorityCode :=
  fun s => ⟨renderFrame Config.device s, exec_renderFrame s, renderFrame_fb _ s⟩

/-! ### What a draw puts on a pixel (R117, R139) -/

/-- What a draw performed from `s` puts on a pixel, if anything. A layer's draw reads its cache as the refresh
leaves it, coherent or not. -/
def drawInk (cfg : Config) (s : State) (sx sy : Fin 256) : Draw → Option Pen
  | .layer L => layerInk cfg (s.refresh cfg L) L sx sy
  | .bank b => if InsidePixel s.clip sx sy then bankSource cfg s b sx sy else none

theorem performDraw_get (cfg : Config) (s : State) (d : Draw) (x y : Fin 256) :
    (performDraw cfg s d).fb.get x y = (drawInk cfg s x y d).getD (s.fb.get x y) := by
  cases d with
  | layer L => rw [performDraw, drawLayer_fb, Frame.get_paint, drawInk]
  | bank b =>
    rw [performDraw, drawBank_get, drawInk]
    split <;> rfl

/-- No draw writes outside the clip (R16, R117, R138). -/
theorem drawInk_outside {cfg : Config} {s : State} {x y : Fin 256} (hout : ¬ InsidePixel s.clip x y) (d : Draw) :
    drawInk cfg s x y d = none := by
  cases d with
  | layer L =>
    rw [drawInk, layerInk, if_neg]
    rwa [State.refresh_clip]
  | bank b => rw [drawInk, if_neg hout]

/-! ### A draw changes nothing that a draw reads (R169) -/

theorem TileLayer.ext_fields {l m : TileLayer} (hcache : l.cache = m.cache) (hdirty : l.dirty = m.dirty)
    (hrederive : l.rederive = m.rederive) : l = m := by
  obtain ⟨cache, dirty, rederive⟩ := l
  obtain ⟨cache', dirty', rederive'⟩ := m
  exact (TileLayer.mk.injEq ..).mpr ⟨hcache, hdirty, hrederive⟩

theorem dirtyCount_zero : dirtyCount 0#1024 = 0 :=
  List.countP_eq_zero.2 fun c _ => by simp

/-- A refresh finds no cell to derive where none is dirty. -/
theorem TileLayer.refresh_of_clean {l : TileLayer} (h : l.dirty = 0#1024) (derive : Nat → TileInfo) :
    l.refresh derive = l := by
  refine TileLayer.ext_fields (Vector.ext fun c hc => ?_) ((TileLayer.refresh_dirty derive l).trans h.symm) ?_
  · have hcell := TileLayer.refresh_cache derive l ⟨c, hc⟩
    rwa [h, BitVec.getLsbD_zero, if_neg Bool.false_ne_true] at hcell
  · rw [TileLayer.refresh_rederive, h, dirtyCount_zero, Nat.add_zero]

theorem TileLayer.refresh_refresh (l : TileLayer) (derive : Nat → TileInfo) :
    (l.refresh derive).refresh derive = l.refresh derive :=
  TileLayer.refresh_of_clean (TileLayer.refresh_dirty derive l) derive

/-- The draws from the two states put the same on every pixel: they read the same RAM and registers, and each layer's
cache is the same after its refresh. Their framebuffers and phases may differ. -/
structure SameInk (cfg : Config) (s t : State) : Prop where
  ram : ∀ a, ramByte cfg t a = ramByte cfg s a
  scroll : t.scroll = s.scroll
  flip : t.flip = s.flip
  clip : t.clip = s.clip
  refreshed : ∀ L, (t.refresh cfg L).layer L = (s.refresh cfg L).layer L

theorem layerScroll_congr {s t : State} (h : t.scroll = s.scroll) (L : LayerId) :
    layerScroll t L = layerScroll s L := by
  cases L with
  | fg => exact congrArg BitVec.toNat h
  | bg => rfl

theorem bankSource_congr {cfg : Config} {s t : State} (hram : ∀ a, ramByte cfg t a = ramByte cfg s a)
    (hflip : t.flip = s.flip) (b : Bank) (x y : Fin 256) : bankSource cfg t b x y = bankSource cfg s b x y := by
  simp only [bankSource, spriteAt_congr hram hflip]

theorem SameInk.drawInk {cfg : Config} {s t : State} (h : SameInk cfg s t) (x y : Fin 256) :
    drawInk cfg t x y = drawInk cfg s x y := by
  funext d
  cases d with
  | layer L =>
    simp only [Machine.drawInk, layerInk, State.refresh_flip, State.refresh_clip, layerScroll_refresh, h.flip, h.clip,
      h.refreshed, layerScroll_congr h.scroll]
  | bank b => simp only [Machine.drawInk, h.clip, bankSource_congr h.ram h.flip]

/-- Tile info reads the RAM alone, so a layer that has been refreshed or left alone refreshes to the same. -/
theorem refreshed_of_layer {cfg : Config} {s t : State} {L : LayerId} (hram : ∀ a, ramByte cfg t a = ramByte cfg s a)
    (h : t.layer L = s.layer L ∨ t.layer L = (s.layer L).refresh (tileInfo cfg s L)) :
    (t.refresh cfg L).layer L = (s.refresh cfg L).layer L := by
  have hinfo : tileInfo cfg t L = tileInfo cfg s L := funext (tileInfo_congr hram L)
  rw [State.refresh_layer, State.refresh_layer, hinfo]
  obtain hleft | hdrawn := h
  · rw [hleft]
  · rw [hdrawn, TileLayer.refresh_refresh]

theorem sameInk_performDraw (cfg : Config) (s : State) (d : Draw) : SameInk cfg s (performDraw cfg s d) := by
  cases d with
  | layer M =>
    refine ⟨drawLayer_ramByte cfg s M, drawLayer_scroll cfg s M, drawLayer_flip cfg s M, drawLayer_clip cfg s M,
      fun L => refreshed_of_layer (drawLayer_ramByte cfg s M) ?_⟩
    by_cases hL : L = M
    · subst hL
      exact .inr (drawLayer_layer cfg s L)
    · exact .inl (drawLayer_layer_other cfg s hL)
  | bank b =>
    exact ⟨drawBank_ramByte cfg s b, drawBank_scroll cfg s b, drawBank_flip cfg s b, drawBank_clip cfg s b,
      fun L => refreshed_of_layer (drawBank_ramByte cfg s b) (.inl (drawBank_layer cfg s b L))⟩

theorem sameInk_renderFrame (cfg : Config) (s : State) : SameInk cfg s (renderFrame cfg s) :=
  ⟨renderFrame_ramByte cfg s, renderFrame_scroll cfg s, renderFrame_flip cfg s, renderFrame_clip cfg s,
    fun L => refreshed_of_layer (renderFrame_ramByte cfg s) (.inr (renderFrame_layer cfg s L))⟩

/-! ### Every pixel after a render -/

/-- Draws one after another: the last one in the list that puts something on a pixel wins. -/
theorem foldl_performDraw_get (cfg : Config) (ds : List Draw) (s : State) (x y : Fin 256) :
    (ds.foldl (performDraw cfg) s).fb.get x y =
      (ds.reverse.findSome? (drawInk cfg s x y)).getD (s.fb.get x y) := by
  induction ds generalizing s with
  | nil => rfl
  | cons d rest ih =>
    rw [List.foldl_cons, ih, (sameInk_performDraw cfg s d).drawInk, performDraw_get, List.reverse_cons,
      List.findSome?_append, Option.getD_or]
    simp

/-- What a render puts on a pixel, if anything: the ink of the last draw of R164's row that has some there. -/
def renderInk (cfg : Config) (s : State) (sx sy : Fin 256) : Option Pen :=
  (drawOrder s.prio).reverse.findSome? (drawInk cfg s sx sy)

theorem renderFrame_get (cfg : Config) (s : State) (x y : Fin 256) :
    (renderFrame cfg s).fb.get x y = (renderInk cfg s x y).getD (s.fb.get x y) := by
  rw [renderFrame_fb, foldl_performDraw_get, renderInk]

theorem renderFrame_get_outside (cfg : Config) {s : State} {x y : Fin 256} (hout : ¬ InsidePixel s.clip x y) :
    (renderFrame cfg s).fb.get x y = s.fb.get x y := by
  have hnone : renderInk cfg s x y = none := List.findSome?_eq_none_iff.2 fun d _ => drawInk_outside hout d
  rw [renderFrame_get, hnone, Option.getD_none]

/-- The frame of a render (R157, R169). -/
theorem renderFrame_frame (cfg : Config) (s : State) :
    renderFrame cfg s =
      { s with fg := (renderFrame cfg s).fg, bg := (renderFrame cfg s).bg, fb := (renderFrame cfg s).fb,
               phase := .idle, response := .status .success } := by
  rw [← renderFrame_mem cfg s, ← renderFrame_scroll cfg s, ← renderFrame_latch cfg s, ← renderFrame_palette cfg s,
    ← renderFrame_port cfg s, ← renderFrame_clip cfg s, ← renderFrame_draws cfg s, ← renderFrame_phase cfg s,
    ← renderFrame_response cfg s]

/-- Settles O34: the frame of a render, and no draw writes outside the clip. -/
theorem renderFrameLeavesTheRest : Obligations.RenderFrameLeavesTheRest :=
  ⟨by decide, fun s => ⟨renderFrame Config.device s, exec_renderFrame s, renderFrame_frame _ s,
    fun _ _ => renderFrame_get_outside _⟩⟩

/-! ### A second render (R157) -/

theorem renderFrame_layer_twice (cfg : Config) (s : State) (L : LayerId) :
    (renderFrame cfg (renderFrame cfg s)).layer L = (renderFrame cfg s).layer L := by
  rw [renderFrame_layer]
  exact TileLayer.refresh_of_clean (renderFrame_dirty cfg s L) _

theorem renderInk_renderFrame (cfg : Config) (s : State) (x y : Fin 256) :
    renderInk cfg (renderFrame cfg s) x y = renderInk cfg s x y := by
  rw [renderInk, renderFrame_prio, (sameInk_renderFrame cfg s).drawInk, renderInk]

theorem renderFrame_fb_twice (cfg : Config) (s : State) :
    (renderFrame cfg (renderFrame cfg s)).fb = (renderFrame cfg s).fb := by
  refine Frame.ext_get fun x y => ?_
  rw [renderFrame_get, renderInk_renderFrame, renderFrame_get]
  cases renderInk cfg s x y <;> rfl

theorem renderFrame_renderFrame (cfg : Config) (s : State) :
    renderFrame cfg (renderFrame cfg s) = renderFrame cfg s := by
  have hfg : (renderFrame cfg (renderFrame cfg s)).fg = (renderFrame cfg s).fg := renderFrame_layer_twice cfg s .fg
  have hbg : (renderFrame cfg (renderFrame cfg s)).bg = (renderFrame cfg s).bg := renderFrame_layer_twice cfg s .bg
  rw [renderFrame_frame cfg (renderFrame cfg s), hfg, hbg, renderFrame_fb_twice, ← renderFrame_phase cfg s,
    ← renderFrame_response cfg s]

/-- Settles O38: the second render finds no cell dirty, and puts the same ink on every pixel. -/
theorem renderAgainChangesNothing : Obligations.RenderAgainChangesNothing := by
  intro s
  refine ⟨renderFrame Config.device s, exec_renderFrame s, ?_⟩
  rw [exec_renderFrame, renderFrame_renderFrame]

/-! ### The visible pixel (R165) -/

/-- What a draw shows at a pixel, from the RAM. -/
def drawSource (cfg : Config) (s : State) (sx sy : Fin 256) : Draw → Option Pen
  | .layer L => layerSource cfg s L sx sy
  | .bank b => bankSource cfg s b sx sy

/-- With coherent caches the ink of a draw is what the RAM says (R112). -/
theorem drawInk_inside {cfg : Config} {s : State} (h : ∀ L, Coherent cfg s L) {x y : Fin 256}
    (hin : InsidePixel s.clip x y) : drawInk cfg s x y = drawSource cfg s x y := by
  funext d
  cases d with
  | layer L => rw [drawInk, layerInk_refresh (h L), if_pos hin, drawSource]
  | bank b => rw [drawInk, if_pos hin, drawSource]

theorem findSome?_cons_eq_or {α β : Type} (f : α → Option β) (a : α) (l : List α) :
    (a :: l).findSome? f = (f a).or (l.findSome? f) := by
  rw [List.findSome?_cons]
  cases f a <;> rfl

/-- R165's list is R164's draw order backwards: the background, drawn first, is the last resort. -/
theorem findSome?_drawSource (cfg : Config) (s : State) (x y : Fin 256) :
    (drawOrder s.prio).reverse.findSome? (drawSource cfg s x y) = some (visiblePen cfg s x y) := by
  rw [visiblePen, drawOrder, ← Option.or_some, ← layerSource_bg]
  split_ifs
  all_goals simp [findSome?_cons_eq_or, drawSource, Option.or_assoc]

theorem renderFrame_get_of_coherent {cfg : Config} {s : State} (h : ∀ L, Coherent cfg s L) (x y : Fin 256) :
    (renderFrame cfg s).fb.get x y = if InsidePixel s.clip x y then visiblePen cfg s x y else s.fb.get x y := by
  split
  case isTrue hin => rw [renderFrame_get, renderInk, drawInk_inside h hin, findSome?_drawSource, Option.getD_some]
  case isFalse hout => exact renderFrame_get_outside cfg hout

theorem coherent_layers {cfg : Config} {s : State} (hfg : Coherent cfg s .fg) (hbg : Coherent cfg s .bg)
    (L : LayerId) : Coherent cfg s L := by
  cases L with
  | fg => exact hfg
  | bg => exact hbg

/-- Settles O35: the ink of the last draw that has some is the first source of R165's list that applies. -/
theorem visiblePixelOfARender : Obligations.VisiblePixelOfARender :=
  fun s hfg hbg => ⟨renderFrame Config.device s, exec_renderFrame s,
    renderFrame_get_of_coherent (coherent_layers hfg hbg)⟩

/-! ### What the picture depends on (R169) -/

theorem layerSource_congr {cfg : Config} {s t : State} (hram : ∀ a, ramByte cfg t a = ramByte cfg s a)
    (hscroll : t.scroll = s.scroll) (hflip : t.flip = s.flip) (L : LayerId) (x y : Fin 256) :
    layerSource cfg t L x y = layerSource cfg s L x y := by
  simp only [layerSource, hflip, layerScroll_congr hscroll, tileInfo_congr hram]

theorem visiblePen_congr {cfg : Config} {s t : State} (hram : ∀ a, ramByte cfg t a = ramByte cfg s a)
    (hscroll : t.scroll = s.scroll) (hflip : t.flip = s.flip) (hprio : t.prio = s.prio) (x y : Fin 256) :
    visiblePen cfg t x y = visiblePen cfg s x y := by
  have hsource : drawSource cfg t x y = drawSource cfg s x y := by
    funext d
    cases d with
    | layer L => exact layerSource_congr hram hscroll hflip L x y
    | bank b => exact bankSource_congr hram hflip b x y
  apply Option.some.inj
  rw [← findSome?_drawSource, ← findSome?_drawSource, hprio, hsource]

/-- Settles O36, pixel by pixel: inside the clip the visible pen reads the shared state alone. -/
theorem pictureIsAFunctionOfVisibleState : Obligations.PictureIsAFunctionOfVisibleState := by
  intro s s' h h' hram hscroll hflip hprio hclip hout
  refine ⟨renderFrame Config.device s, renderFrame Config.device s', exec_renderFrame s, exec_renderFrame s',
    Frame.ext_get fun x y => ?_, renderFrame_frame _ s⟩
  rw [renderFrame_get_of_coherent h, renderFrame_get_of_coherent h', ← hclip]
  split
  case isTrue => exact visiblePen_congr hram hscroll hflip hprio x y
  case isFalse hoff => exact hout x y hoff

/-! ### Priority codes 2 and 3 (R163) -/

theorem performDraw_flip (cfg : Config) (s : State) (d : Draw) : (performDraw cfg s d).flip = s.flip :=
  (sameInk_performDraw cfg s d).flip

theorem performDraw_setLatch {s : State} {d : Byte} (hflip : d.getLsbD 1 = s.flip) (cfg : Config) (draw : Draw) :
    performDraw cfg (s.setLatch d) draw = (performDraw cfg s draw).setLatch d := by
  cases draw with
  | layer L => exact drawLayer_setLatch hflip cfg L
  | bank b => exact drawBank_setLatch hflip cfg b

theorem foldl_performDraw_setLatch {s : State} {d : Byte} (hflip : d.getLsbD 1 = s.flip) (cfg : Config)
    (ds : List Draw) :
    ds.foldl (performDraw cfg) (s.setLatch d) = (ds.foldl (performDraw cfg) s).setLatch d := by
  induction ds generalizing s with
  | nil => rfl
  | cons draw rest ih =>
    rw [List.foldl_cons, List.foldl_cons, performDraw_setLatch hflip, ih]
    rwa [performDraw_flip]

/-- A render reads of PRIO the draw order alone. -/
theorem renderFrame_setLatch_of_drawOrder {s : State} {d : Byte} (hflip : d.getLsbD 1 = s.flip)
    (horder : drawOrder (s.setLatch d).prio = drawOrder s.prio) (cfg : Config) :
    renderFrame cfg (s.setLatch d) = (renderFrame cfg s).setLatch d := by
  rw [renderFrame_eq_draws, renderFrame_eq_draws, horder, foldl_performDraw_setLatch hflip, setPhase_setLatch,
    respond_setLatch]

/-- Settles O37: the two codes have one draw order. -/
theorem priorityCodesTwoAndThreeAreAlike : Obligations.PriorityCodesTwoAndThreeAreAlike := by
  intro s d htwo hthree hflip
  have horder : drawOrder (s.setLatch d).prio = drawOrder s.prio := by
    rw [State.prio, State.setLatch_latch, hthree, htwo]
    decide
  exact ⟨renderFrame Config.device s, exec_renderFrame s,
    congrArg Host.Outcome.next (renderFrame_setLatch_of_drawOrder hflip horder _)⟩

end Sys2Proof.Machine
end

section
/-! PROOFS. The exceptions: no transaction of the opcode table has one (R171, R172). -/

namespace Sys2Proof.Machine

/-- Settles O40, row by row of the opcode table: each has its next state, whatever the state before. -/
theorem everyTransactionCompletes : Obligations.EveryTransactionCompletes := by
  intro i s
  cases i with
  | wrFgGfx c d => exact ⟨_, exec_tileWrite .fg .gfx c d s⟩
  | wrFgAttr c d => exact ⟨_, exec_tileWrite .fg .attr c d s⟩
  | wrBgGfx c d => exact ⟨_, exec_tileWrite .bg .gfx c d s⟩
  | wrBgAttr c d => exact ⟨_, exec_tileWrite .bg .attr c d s⟩
  | wrSprPri k d => exact ⟨_, exec_spriteWrite .pri k d s⟩
  | wrSprSec k d => exact ⟨_, exec_spriteWrite .sec k d s⟩
  | wrScroll d => exact ⟨s.setScroll d, rfl⟩
  | wrCtrl d => exact ⟨s.setLatch d, rfl⟩
  | rdFgGfx c => exact ⟨_, exec_tileRead .fg .gfx c s⟩
  | rdFgAttr c => exact ⟨_, exec_tileRead .fg .attr c s⟩
  | rdBgGfx c => exact ⟨_, exec_tileRead .bg .gfx c s⟩
  | rdBgAttr c => exact ⟨_, exec_tileRead .bg .attr c s⟩
  | rdSprPri k => exact ⟨_, exec_spriteRead .pri k s⟩
  | rdSprSec k => exact ⟨_, exec_spriteRead .sec k s⟩
  | renderFrame => exact ⟨_, exec_renderFrame s⟩
  | paletteBuild => exact ⟨s.rebuildPalette Config.device, rfl⟩
  | reset => exact ⟨resetCore Config.device s, rfl⟩

end Sys2Proof.Machine
end

section
/-! PROOFS. Two WRITEs in either order (R192), the state at power-up with its invariant (R186), and RESET (R187 to
R190). -/

namespace Sys2Proof.Machine

/-! ### The state after a WRITE, field by field (R46, R69) -/

/-- The RAM after a WRITE of `d` to `a`. -/
def storeByte (a : PortAddr) (d : Byte) (m : List Host.Cell) : List Host.Cell :=
  if a.toNat < 0x1040 then writeCells Config.device.powerUpByte m a.toNat d else m

/-- A layer's bookkeeping after a WRITE to `a`. The two planes of a layer are 0x800 bytes in a row, and the low ten bits
of an address of either are its cell (R46, R72). -/
def markWritten (L : LayerId) (a : PortAddr) (l : TileLayer) : TileLayer :=
  if (tileRegion L .gfx).base ≤ a.toNat ∧ a.toNat < (tileRegion L .gfx).base + 0x800 then
    l.markDirty (a.toNat % 1024)
  else l

/-- The register at address `k`, which held `old`, after a WRITE of `d` to `a`. -/
def setRegister (k : Nat) (a : PortAddr) (d old : Byte) : Byte := if a.toNat = k then d else old

/-- The state after a WRITE of `d` to any address `a`: what becomes of a field depends on `a` and that field alone. -/
def writeAt (a : PortAddr) (d : Byte) (s : State) : State :=
  { s with
    mem := storeByte a d s.mem
    scroll := setRegister 0x1040 a d s.scroll
    latch := setRegister 0x1041 a d s.latch
    fg := markWritten .fg a s.fg
    bg := markWritten .bg a s.bg }

theorem markWritten_tile {L : LayerId} {p : Plane} {c : BitVec 10} {a : PortAddr}
    (ha : a.toNat = (tileRegion L p).base + c.toNat) (l : TileLayer) : markWritten L a l = l.markDirty c.toNat := by
  have hc : c.toNat < 1024 := c.isLt
  have hcell : a.toNat % 1024 = c.toNat := by cases L <;> cases p <;> rw [tileRegion, Region.base] at ha <;> omega
  rw [markWritten, hcell, if_pos]
  cases L <;> cases p <;> simp only [tileRegion, Region.base] at ha ⊢ <;> omega

theorem markWritten_tile_other {L M : LayerId} (hLM : L ≠ M) {p : Plane} {c : BitVec 10} {a : PortAddr}
    (ha : a.toNat = (tileRegion L p).base + c.toNat) (l : TileLayer) : markWritten M a l = l := by
  have hc : c.toNat < 1024 := c.isLt
  refine if_neg ?_
  cases L <;> cases M <;> cases p <;> simp only [tileRegion, Region.base, ne_eq, not_true] at hLM ha ⊢ <;> omega

theorem markWritten_of_ge {a : PortAddr} (ha : 0x1000 ≤ a.toNat) (L : LayerId) (l : TileLayer) :
    markWritten L a l = l := by
  refine if_neg ?_
  cases L <;> rw [tileRegion, Region.base] <;> omega

/-- A WRITE to the RAM stores its byte, marks at most one cell of each layer and leaves the registers. -/
theorem writeAt_of_lt {a : PortAddr} (ha : a.toNat < 0x1040) (d : Byte) (s : State) :
    writeAt a d s =
      { s with
        mem := writeCells Config.device.powerUpByte s.mem a.toNat d
        fg := markWritten .fg a s.fg
        bg := markWritten .bg a s.bg } := by
  simp only [writeAt, storeByte, setRegister, if_pos ha, if_neg (show a.toNat ≠ 0x1040 by omega),
    if_neg (show a.toNat ≠ 0x1041 by omega)]

/-- A WRITE past the RAM can only set a register. -/
theorem writeAt_of_ge {a : PortAddr} (ha : 0x1040 ≤ a.toNat) (d : Byte) (s : State) :
    writeAt a d s =
      { s with scroll := setRegister 0x1040 a d s.scroll, latch := setRegister 0x1041 a d s.latch } := by
  have hmark := markWritten_of_ge (show 0x1000 ≤ a.toNat by omega)
  simp only [writeAt, storeByte, if_neg (show ¬ a.toNat < 0x1040 by omega), hmark]

/-- By the rows of R69's table. -/
theorem DecodedWrite.perform_eq {a : PortAddr} {d : Byte} {x : Decoded} (h : DecodedWrite a d x) (s : State) :
    perform x s = .next (writeAt a d s) := by
  cases h
  case tile L p c ha =>
    have hlt : a.toNat < 0x1040 := ha ▸ Region.addr_lt _ ((tileRegion_size L p).symm ▸ c.isLt)
    rw [perform_tileWrite, writeAt_of_lt hlt, ha]
    cases L with
    | fg => rw [markWritten_tile ha, markWritten_tile_other (by decide) ha]; rfl
    | bg => rw [markWritten_tile ha, markWritten_tile_other (by decide) ha]; rfl
  case sprite b k ha =>
    have hlt : a.toNat < 0x1040 := ha ▸ Region.addr_lt _ ((spriteRegion_size b).symm ▸ k.isLt)
    have hge : 0x1000 ≤ a.toNat := by cases b <;> rw [spriteRegion, Region.base] at ha <;> omega
    rw [perform_spriteWrite, writeAt_of_lt hlt, markWritten_of_ge hge, markWritten_of_ge hge, ha, memWrite]
  case scroll ha =>
    rw [writeAt_of_ge (by omega), setRegister, setRegister, if_pos ha, if_neg (by omega)]
    rfl
  case ctrl ha =>
    rw [writeAt_of_ge (by omega), setRegister, setRegister, if_neg (by omega), if_pos ha]
    rfl
  case unmapped ha =>
    rw [writeAt_of_ge (by omega), setRegister, setRegister, if_neg (by omega), if_neg (by omega)]
    rfl

theorem perform_write {w : Word} {a : PortAddr} (h : IsWriteTo w a) (s : State) :
    perform (decode w) s = .next (writeAt a (Word.data w) s) := by
  rw [decode_of_isWriteTo h]
  exact (decodedWrite a _).perform_eq s

/-! ### Two WRITEs to different addresses (R192) -/

/-- Canonical memories that read alike are equal, and each byte reads the same in either order. -/
theorem writeCells_comm {d : Nat → Byte} {m : List Host.Cell} (hm : Memory.wf d m) {a b : Nat} (ha : a < 0x1040)
    (hb : b < 0x1040) (hab : a ≠ b) (v w : Byte) :
    writeCells d (writeCells d m a v) b w = writeCells d (writeCells d m b w) a v := by
  refine Memory.ext (writeCells_wf hb (writeCells_wf ha hm)) (writeCells_wf ha (writeCells_wf hb hm)) fun c => ?_
  by_cases hcb : c = b
  · rw [hcb, readCells_write_same, readCells_write_other hab.symm, readCells_write_same]
  rw [readCells_write_other hcb]
  by_cases hca : c = a
  · rw [hca, readCells_write_same, readCells_write_same]
  · rw [readCells_write_other hca, readCells_write_other hca, readCells_write_other hcb]

theorem TileLayer.markDirty_comm (l : TileLayer) (b c : Nat) :
    (l.markDirty b).markDirty c = (l.markDirty c).markDirty b := by
  simp only [TileLayer.markDirty, BitVec.or_assoc, BitVec.or_comm (BitVec.twoPow 1024 b)]

/-- Marking commutes at any two addresses: the two planes of a cell share its dirty bit. -/
theorem markWritten_comm (L : LayerId) (a b : PortAddr) (l : TileLayer) :
    markWritten L b (markWritten L a l) = markWritten L a (markWritten L b l) := by
  simp only [markWritten]
  split_ifs
  · exact l.markDirty_comm _ _
  all_goals rfl

section TwoAddresses

variable {a b : PortAddr} (hab : a ≠ b)
include hab

theorem storeByte_comm {m : List Host.Cell} (hm : Memory.wf Config.device.powerUpByte m) (v w : Byte) :
    storeByte b w (storeByte a v m) = storeByte a v (storeByte b w m) := by
  simp only [storeByte]
  split_ifs with hb ha
  · exact writeCells_comm hm ha hb (BitVec.toNat_ne_iff_ne.2 hab) v w
  all_goals rfl

/-- At most one of two different addresses is the register's. -/
theorem setRegister_comm (k : Nat) (v w old : Byte) :
    setRegister k b w (setRegister k a v old) = setRegister k a v (setRegister k b w old) := by
  simp only [setRegister]
  split_ifs with hb ha
  · exact absurd (BitVec.eq_of_toNat_eq (ha.trans hb.symm)) hab
  all_goals rfl

theorem writeAt_comm {s : State} (hm : Memory.wf Config.device.powerUpByte s.mem) (v w : Byte) :
    writeAt b w (writeAt a v s) = writeAt a v (writeAt b w s) := by
  simp only [writeAt, storeByte_comm hab hm v w, setRegister_comm hab, markWritten_comm _ a b]

end TwoAddresses

/-- Settles O43, field by field of the state: canonical memory holds the two bytes in either order, the dirty marks
commute, and different addresses set different registers. -/
theorem writesToDifferentAddressesCommute : Obligations.WritesToDifferentAddressesCommute := by
  intro s w w' a a' hm hw hw' hne
  refine ⟨_, _, _, perform_write hw s, perform_write hw' _, perform_write hw' s, ?_⟩
  rw [perform_write hw, writeAt_comm hne hm]

/-! ### Power-up (R186) -/

theorem reset_layer (L : LayerId) : State.reset.layer L = TileLayer.powerUp := by
  cases L <;> rfl

theorem reset_dirty (L : LayerId) (c : Fin 1024) : (State.reset.layer L).dirty.getLsbD c = true := by
  rw [reset_layer, TileLayer.powerUp_dirty, decide_eq_true c.isLt]

theorem reset_cache (L : LayerId) (c : Fin 1024) : (State.reset.layer L).cache[c] = none := by
  rw [reset_layer, TileLayer.powerUp_cache]

theorem dirtyCount_powerUp : dirtyCount TileLayer.powerUp.dirty = 1024 := by
  have hall : ∀ c ∈ List.range 1024, TileLayer.powerUp.dirty.getLsbD c = true := fun c hc => by
    rw [TileLayer.powerUp_dirty, decide_eq_true (List.mem_range.1 hc)]
  rw [dirtyCount, List.countP_eq_length.2 hall, List.length_range]

theorem renderFrame_reset_rederive (L : LayerId) :
    ((renderFrame Config.device State.reset).layer L).rederive = 1024 := by
  rw [renderFrame_rederive, reset_layer, dirtyCount_powerUp]
  rfl

theorem renderFrame_reset_cache (L : LayerId) (c : Fin 1024) :
    ((renderFrame Config.device State.reset).layer L).cache[c] = some (tileInfo Config.device State.reset L c) := by
  rw [renderFrame_cache, if_pos (reset_dirty L c)]

/-- Settles O1: nothing is listed in the RAM, and every cell is dirty, so the first render derives each. -/
theorem powerUpState : Obligations.PowerUpState :=
  ⟨fun _ => readCells_nil, rfl, rfl, rfl, rfl, rfl, rfl, rfl, fun L c => ⟨reset_cache L c, reset_dirty L c⟩,
    fun L => by rw [reset_layer]; rfl, rfl, rfl, rfl, rfl, renderFrame Config.device State.reset,
    exec_renderFrame State.reset, fun L => ⟨renderFrame_reset_rederive L, renderFrame_reset_cache L⟩⟩

/-- Where every cell is dirty, the cache is coherent whatever it holds (R38). -/
theorem coherent_reset (L : LayerId) : Coherent Config.device State.reset L := fun c hclean =>
  Bool.noConfusion (hclean.symm.trans (reset_dirty L c))

/-- Settles O45: memory lists nothing, and no cell is clean. -/
theorem invariantAtPowerUp : Obligations.InvariantAtPowerUp where
  memory := Memory.wf_nil
  fgCoherent := coherent_reset .fg
  bgCoherent := coherent_reset .bg
  palette := rfl
  phase := rfl

/-! ### RESET (R187, R190) -/

theorem exec_reset (s : State) : exec .reset s = .next (resetCore Config.device s) :=
  rfl

theorem resetCore_frame (cfg : Config) (s : State) :
    resetCore cfg s = { s with latch := 0x00, scroll := 0x00, phase := .idle, palette := buildPalette cfg } :=
  rfl

theorem resetCore_resetCore (cfg : Config) (s : State) : resetCore cfg (resetCore cfg s) = resetCore cfg s :=
  rfl

theorem resetCore_latch (cfg : Config) (s : State) : (resetCore cfg s).latch = 0x00#8 :=
  rfl

theorem fields_of_latch_zero {s : State} (h : s.latch = 0x00#8) :
    s.nmiEn = false ∧ s.flip = false ∧ s.prio = 0#2 ∧ s.romBank = false := by
  simp [State.nmiEn, State.flip, State.prio, State.romBank, h]

/-- Settles O39: RESET sets four fields to constants, so the fields of the latch are 0 and a second one changes
nothing. -/
theorem resetRestoresTheControlState : Obligations.ResetRestoresTheControlState := by
  refine ⟨by decide, fun s => ?_⟩
  obtain ⟨hnmi, hflip, hprio, hbank⟩ := fields_of_latch_zero (resetCore_latch Config.device s)
  refine ⟨resetCore Config.device s, exec_reset s, resetCore_frame _ s, hnmi, hflip, hprio, hbank, ?_⟩
  rw [exec_reset, resetCore_resetCore]

end Sys2Proof.Machine
end
